-- ==== Sys2Proof/Word.lean ====
section
/-! DEFINITION. The word types of MMUINIT: 64-bit descriptors, system registers and addresses, 32-bit command and
instruction words, bytes of memory (00_scope.md R7, R11). -/

namespace Sys2Proof

/-- Descriptors, system-register values, addresses and ERRINFO (R11). -/
abbrev Word64 := BitVec 64

/-- Command words, A64 words and STATUS (R11, R90). -/
abbrev Word32 := BitVec 32

/-- The unit of memory (10_state.md R38). -/
abbrev Byte := BitVec 8

end Sys2Proof
end

