-- ==== Sys2Proof/Config.lean ====
section
/-! DEFINITION. The parameters of 00_scope.md: the fixed ones (R7, R8) as constants, the configuration of R9 as plain
data. The configuration is a value of the state (field cfg) that no step writes, so that a statement about every state
is a statement about every configuration (R9, R37; log entry 1). -/

namespace Sys2Proof

/-- PAGE_SIZE (R7): one 64 KiB page. -/
abbrev pageSize : Nat := 0x10000
/-- LEAF_ENTRIES (R7). -/
abbrev leafEntries : Nat := 8192
/-- ROOT_USED (R7): root slots that hold table descriptors. -/
abbrev rootUsed : Nat := 9
/-- ROOT_ENTRIES (R8, D4). -/
abbrev rootEntries : Nat := 8192
/-- N_LEAF (R8, D4): leaf tables. -/
abbrev nLeaf : Nat := 9
/-- TABLE_BYTES (R8, D4). -/
abbrev tableBytes : Nat := 0x10000
/-- REGION_BYTES (R8, D6). -/
abbrev regionBytes : Nat := 0xA0000
/-- MAPPED_PAGES (R8, D7). -/
abbrev mappedPages : Nat := 73728
/-- TOTAL_ENTRIES (R8, D19): writes of one BUILD. -/
abbrev totalEntries : Nat := 81920

/-- The scope of a data synchronization barrier (R14, 20_memory.md R69). -/
inductive DsbScope where
  | sy
  | ish
  deriving DecidableEq, Repr

/-- VARIANT (R9): one of the build-time platform configurations. EL is a number because a wrong one is a CONFIG error
of the block (60_exceptions.md R202), not a value that cannot be written. -/
structure Variant where
  el : Nat
  devLo : Nat
  devHi : Nat
  devNs : Bool
  deriving DecidableEq, Repr

/-- The variant OLD of R9 (Raspberry Pi 3). -/
def Variant.old : Variant := { el := 3, devLo := 0x3F00, devHi := 0x4000, devNs := true }

/-- The variant NEW of R9 (Raspberry Pi 4). -/
def Variant.new : Variant := { el := 2, devLo := 0xFC00, devHi := 0x10000, devNs := false }

/-- The configuration parameters of R9. -/
structure Config where
  /-- TABLE_BASE, the physical address of the root table. -/
  tableBase : Word64
  /-- VARIANT. -/
  variant : Variant
  /-- DSB1_SCOPE, the scope of the barrier of µop u4. -/
  dsb1Scope : DsbScope
  deriving DecidableEq, Repr

/-- The configuration of the common start state of 95_test_vectors.md (DESIGN CHOICE, log entry 1). -/
def Config.common : Config :=
  { tableBase := 0x100000, variant := Variant.old, dsb1Scope := .sy }

end Sys2Proof
end

