-- ==== Sys2Proof/Syntax.lean ====
section
/-! DEFINITION. The instructions of MMUINIT: one constructor per row of spec/opcode_table.json (30_encoding.md R90,
R102). Operands are numbers, as R93 and R95 read them out of a word; whether a number fits its field is WellFormed's. -/

namespace Sys2Proof

/-- The exception levels whose register sets SEQ can target (42_sequencer.md R175). -/
inductive El where
  | el2
  | el3
  deriving DecidableEq, Repr

/-- The system registers the block reaches through its port (00_scope.md R14, 10_state.md R39). -/
inductive SysReg where
  | mair (e : El)
  | tcr (e : El)
  | ttbr0 (e : El)
  | sctlr (e : El)
  | idAa64mmfr0El1
  deriving DecidableEq, Repr

/-- The 18 rows of spec/opcode_table.json. `rt` is the number of an X register (31 names XZR, R95). -/
inductive Instr where
  /-- BUILD (41_initializer.md R140). -/
  | build
  /-- ENABLE (42_sequencer.md R160). -/
  | enable
  /-- ENC.TABLE #s (40_encoder.md R120). -/
  | encTable (s : Nat)
  /-- ENC.PAGE #g (40_encoder.md R121). -/
  | encPage (g : Nat)
  /-- MSR MAIR_EL3, Xt (R163). -/
  | msrMairEl3 (rt : Nat)
  /-- MSR TCR_EL3, Xt (R165). -/
  | msrTcrEl3 (rt : Nat)
  /-- MSR TTBR0_EL3, Xt (R166). -/
  | msrTtbr0El3 (rt : Nat)
  /-- MSR SCTLR_EL3, Xt (R170). -/
  | msrSctlrEl3 (rt : Nat)
  /-- MRS Xt, SCTLR_EL3 (R169). -/
  | mrsSctlrEl3 (rt : Nat)
  /-- MSR MAIR_EL2, Xt (R163). -/
  | msrMairEl2 (rt : Nat)
  /-- MSR TCR_EL2, Xt (R165). -/
  | msrTcrEl2 (rt : Nat)
  /-- MSR TTBR0_EL2, Xt (R166). -/
  | msrTtbr0El2 (rt : Nat)
  /-- MSR SCTLR_EL2, Xt (R170). -/
  | msrSctlrEl2 (rt : Nat)
  /-- MRS Xt, SCTLR_EL2 (R169). -/
  | mrsSctlrEl2 (rt : Nat)
  /-- MRS Xt, ID_AA64MMFR0_EL1 (R164). -/
  | mrsIdAa64mmfr0El1 (rt : Nat)
  /-- DSB SY (R167, R171). -/
  | dsbSy
  /-- DSB ISH (R167). -/
  | dsbIsh
  /-- ISB (R168, R172). -/
  | isb
  deriving DecidableEq, Repr

end Sys2Proof
end

