-- ==== Sys2Proof/WellFormed.lean ====
section
/-! DEFINITION. Which instructions fit their encodings: the operand ranges of 30_encoding.md R93, R95 and R100 (the
assembler refuses an out-of-field value, it does not truncate it). -/

namespace Sys2Proof

/-- An ENC.TABLE slot fits cmd[12:0] (R93, R100). -/
def slotFits (s : Nat) : Bool := s < 2 ^ 13

/-- An ENC.PAGE index fits cmd[16:0] (R93, R100); 73728 to 131071 assemble, and the block raises RANGE. -/
def pageFits (g : Nat) : Bool := g < 2 ^ 17

/-- An X register number fits Rt = [4:0] (R95). -/
def regFits (rt : Nat) : Bool := rt < 2 ^ 5

/-- Every operand of the instruction fits its field. -/
def Instr.fits : Instr → Bool
  | .build => true
  | .enable => true
  | .encTable s => slotFits s
  | .encPage g => pageFits g
  | .msrMairEl3 rt => regFits rt
  | .msrTcrEl3 rt => regFits rt
  | .msrTtbr0El3 rt => regFits rt
  | .msrSctlrEl3 rt => regFits rt
  | .mrsSctlrEl3 rt => regFits rt
  | .msrMairEl2 rt => regFits rt
  | .msrTcrEl2 rt => regFits rt
  | .msrTtbr0El2 rt => regFits rt
  | .msrSctlrEl2 rt => regFits rt
  | .mrsSctlrEl2 rt => regFits rt
  | .mrsIdAa64mmfr0El1 rt => regFits rt
  | .dsbSy => true
  | .dsbIsh => true
  | .isb => true

/-- The instruction is one the assemblers of R100 and R101 accept. -/
abbrev Instr.WellFormed (i : Instr) : Prop := i.fits = true

end Sys2Proof
end

