-- ==== Sys2Proof/Decode.lean ====
section
/-! DEFINITION. The decoders and the encoder of the two 32-bit formats of 30_encoding.md: HOSTCMD (R91 to R94, R102)
and A64-SYS (R95 to R97). Each decoder is total on every 32-bit word and rejects by name. -/

namespace Sys2Proof

/-- `v[hi:lo]` of 00_scope.md R11: the field from bit hi down to bit lo, inclusive, read as an unsigned number. -/
def bits {n : Nat} (v : BitVec n) (hi lo : Nat) : Nat := v.toNat / 2 ^ lo % 2 ^ (hi + 1 - lo)

/-- Why a word is no instruction. -/
inductive DecodeError where
  /-- A HOSTCMD word whose OP is 0x0 or 0x5 to 0xF (R94); the block raises BADCMD. -/
  | reservedOp (op : Nat)
  /-- A HOSTCMD word with a reserved bit set (R94); the block raises BADCMD. -/
  | reservedBits (op : Nat)
  /-- An A64 word that is no row of the A64-SYS table (R95 to R97); nothing in the spec says what it does. -/
  | notA64Sys
  deriving DecidableEq, Repr

/-! ## HOSTCMD -/

/-- Decoding a word written to CMD (R92 to R94). -/
def decodeCommand (w : Word32) : Except DecodeError Instr :=
  match bits w 31 28 with
  | 1 => if bits w 27 0 = 0 then .ok .build else .error (.reservedBits 1)
  | 2 => if bits w 27 0 = 0 then .ok .enable else .error (.reservedBits 2)
  | 3 => if bits w 27 13 = 0 then .ok (.encTable (bits w 12 0)) else .error (.reservedBits 3)
  | 4 => if bits w 27 17 = 0 then .ok (.encPage (bits w 16 0)) else .error (.reservedBits 4)
  | op => .error (.reservedOp op)

/-! ## A64-SYS -/

/-- The (op0, op1, CRn, CRm, op2) tuple that names a system register in a move (R95, R96). -/
structure SysRegCode where
  op0 : Nat
  op1 : Nat
  crn : Nat
  crm : Nat
  op2 : Nat
  deriving DecidableEq, Repr

/-- The table of R96. -/
def sysRegCode : SysReg → SysRegCode
  | .mair .el2 => { op0 := 3, op1 := 4, crn := 10, crm := 2, op2 := 0 }
  | .mair .el3 => { op0 := 3, op1 := 6, crn := 10, crm := 2, op2 := 0 }
  | .tcr .el2 => { op0 := 3, op1 := 4, crn := 2, crm := 0, op2 := 2 }
  | .tcr .el3 => { op0 := 3, op1 := 6, crn := 2, crm := 0, op2 := 2 }
  | .ttbr0 .el2 => { op0 := 3, op1 := 4, crn := 2, crm := 0, op2 := 0 }
  | .ttbr0 .el3 => { op0 := 3, op1 := 6, crn := 2, crm := 0, op2 := 0 }
  | .sctlr .el2 => { op0 := 3, op1 := 4, crn := 1, crm := 0, op2 := 0 }
  | .sctlr .el3 => { op0 := 3, op1 := 6, crn := 1, crm := 0, op2 := 0 }
  | .idAa64mmfr0El1 => { op0 := 3, op1 := 0, crn := 0, crm := 7, op2 := 0 }

/-- The registers of R96, in its order. -/
def sysRegs : List SysReg :=
  [.mair .el2, .mair .el3, .tcr .el2, .tcr .el3, .ttbr0 .el2, .ttbr0 .el3, .sctlr .el2, .sctlr .el3, .idAa64mmfr0El1]

/-- The register a tuple names, if it is one of R96's. -/
def sysRegOfCode (c : SysRegCode) : Option SysReg := sysRegs.find? fun r => sysRegCode r == c

/-- The MSR row for a register (R96; ID_AA64MMFR0_EL1 is read-only). -/
def msrOf (r : SysReg) (rt : Nat) : Option Instr :=
  match r with
  | .mair .el2 => some (.msrMairEl2 rt)
  | .mair .el3 => some (.msrMairEl3 rt)
  | .tcr .el2 => some (.msrTcrEl2 rt)
  | .tcr .el3 => some (.msrTcrEl3 rt)
  | .ttbr0 .el2 => some (.msrTtbr0El2 rt)
  | .ttbr0 .el3 => some (.msrTtbr0El3 rt)
  | .sctlr .el2 => some (.msrSctlrEl2 rt)
  | .sctlr .el3 => some (.msrSctlrEl3 rt)
  | .idAa64mmfr0El1 => none

/-- The MRS row for a register (R96 uses no MRS of MAIR, TCR or TTBR0). -/
def mrsOf (r : SysReg) (rt : Nat) : Option Instr :=
  match r with
  | .mair _ => none
  | .tcr _ => none
  | .ttbr0 _ => none
  | .sctlr .el2 => some (.mrsSctlrEl2 rt)
  | .sctlr .el3 => some (.mrsSctlrEl3 rt)
  | .idAa64mmfr0El1 => some (.mrsIdAa64mmfr0El1 rt)

/-- DSB with the CRm option of R97. -/
def dsbWord (crm : Nat) : Word32 := 0xD503309F#32 ||| (BitVec.ofNat 32 crm <<< 8)

/-- ISB with the CRm option of R97. -/
def isbWord (crm : Nat) : Word32 := 0xD50330DF#32 ||| (BitVec.ofNat 32 crm <<< 8)

/-- The option SY of R97. -/
def crmSy : Nat := 0b1111

/-- The option ISH of R97. -/
def crmIsh : Nat := 0b1011

/-- The move of R95 in a word whose fixed bits match: L picks MSR or MRS, the tuple the register. -/
def decodeMove (w : Word32) : Option Instr :=
  let code : SysRegCode :=
    { op0 := bits w 19 19 + 2, op1 := bits w 18 16, crn := bits w 15 12, crm := bits w 11 8, op2 := bits w 7 5 }
  match sysRegOfCode code with
  | none => none
  | some r => if bits w 21 21 = 0 then msrOf r (bits w 4 0) else mrsOf r (bits w 4 0)

/-- Decoding an A64 word (R95 to R97). -/
def decodeA64 (w : Word32) : Except DecodeError Instr :=
  if w = dsbWord crmSy then .ok .dsbSy
  else if w = dsbWord crmIsh then .ok .dsbIsh
  else if w = isbWord crmSy then .ok .isb
  else if bits w 31 22 = 0b1101010100 ∧ bits w 20 20 = 1 then
    match decodeMove w with
    | some i => .ok i
    | none => .error .notA64Sys
  else .error .notA64Sys

/-! ## Both formats -/

/-- The instruction of either format in a word: no word is both (every A64-SYS word has 0xD in [31:28], which is a
reserved OP of HOSTCMD). Which decoder a word meets in the machine is decided by the port it arrives at. -/
def decode (w : Word32) : Except DecodeError Instr :=
  match decodeA64 w with
  | .ok i => .ok i
  | .error _ => decodeCommand w

/-- A HOSTCMD word with OP in [31:28] and ARG in [27:0] (R91). -/
def commandWord (op arg : Nat) : Word32 := BitVec.ofNat 32 (op * 2 ^ 28 + arg)

/-- The formula of R96, L = 0 for MSR and 1 for MRS. -/
def moveWord (l : Nat) (r : SysReg) (rt : Nat) : Word32 :=
  let c := sysRegCode r
  0xD5100000#32 ||| (BitVec.ofNat 32 l <<< 21) ||| (BitVec.ofNat 32 (c.op0 - 2) <<< 19) |||
    (BitVec.ofNat 32 c.op1 <<< 16) ||| (BitVec.ofNat 32 c.crn <<< 12) ||| (BitVec.ofNat 32 c.crm <<< 8) |||
    (BitVec.ofNat 32 c.op2 <<< 5) ||| BitVec.ofNat 32 rt

/-- The word of a well-formed instruction (R92, R93, R96, R97). -/
def encode : Instr → Word32
  | .build => commandWord 1 0
  | .enable => commandWord 2 0
  | .encTable s => commandWord 3 s
  | .encPage g => commandWord 4 g
  | .msrMairEl3 rt => moveWord 0 (.mair .el3) rt
  | .msrTcrEl3 rt => moveWord 0 (.tcr .el3) rt
  | .msrTtbr0El3 rt => moveWord 0 (.ttbr0 .el3) rt
  | .msrSctlrEl3 rt => moveWord 0 (.sctlr .el3) rt
  | .mrsSctlrEl3 rt => moveWord 1 (.sctlr .el3) rt
  | .msrMairEl2 rt => moveWord 0 (.mair .el2) rt
  | .msrTcrEl2 rt => moveWord 0 (.tcr .el2) rt
  | .msrTtbr0El2 rt => moveWord 0 (.ttbr0 .el2) rt
  | .msrSctlrEl2 rt => moveWord 0 (.sctlr .el2) rt
  | .mrsSctlrEl2 rt => moveWord 1 (.sctlr .el2) rt
  | .mrsIdAa64mmfr0El1 rt => moveWord 1 .idAa64mmfr0El1 rt
  | .dsbSy => dsbWord crmSy
  | .dsbIsh => dsbWord crmIsh
  | .isb => isbWord crmSy

/-- The word the opcode table's numbering gives: every row is one 32-bit word, whose bits above nbits are 0. -/
def tableWord (nbits w : Nat) : Word32 := BitVec.ofNat 32 (w % 2 ^ nbits)

/-- The instruction this decoder reads from the bits w of a row of nbits bits. -/
def decodeTableWord (nbits w : Nat) : Option Instr :=
  match decode (tableWord nbits w) with
  | .ok i => some i
  | .error _ => none

end Sys2Proof
end

