-- ==== Sys2Proof/Machine/State.lean ====
section
/-! DEFINITION. The state of MMUINIT (10_state.md), the reasons a step can stop, and the state after reset (R52). -/

namespace Sys2Proof.Machine

/-- The running command (R22 mode): 0 NONE, 1 BUILD, 2 ENABLE. The value 3 is never held (R33; log entry 20). -/
inductive Mode where
  | none
  | build
  | enable
  deriving DecidableEq, Repr

/-- The error causes of 60_exceptions.md R201. The codes 0xB to 0xF are never produced (log entry
20). -/
inductive ErrCode where
  | none
  | badcmd
  | busy
  | reentry
  | order
  | align
  | config
  | range
  | parange
  | sysreg
  | mem
  deriving DecidableEq, Repr

/-- The SCTLR bits other than M that govern an access (R47, 20_memory.md R61, R79). -/
structure AccessControls where
  /-- Bit 1, A: unaligned data accesses fault. -/
  a : Bool
  /-- Bit 2, C: data accesses are not forced to Non-cacheable. -/
  c : Bool
  /-- Bit 12, I: instruction fetches are not forced to Non-cacheable. -/
  i : Bool
  /-- Bit 19, WXN: writable pages are not executable. -/
  wxn : Bool
  /-- Bit 25, EE: walks and data accesses are big-endian. -/
  ee : Bool
  deriving DecidableEq, Repr

/-- The CPU's translation context (R51): what the last ISB copied (20_memory.md R72). -/
structure Ctx where
  mmuOn : Bool
  mair : Word64
  tcr : Word64
  ttbr0 : Word64
  /-- The other SCTLR bits in effect. R51 does not name them; R70 makes every register write take effect at the ISB, and
  R238 the SCTLR write (log entry 24). -/
  ctl : AccessControls
  deriving DecidableEq, Repr

/-- What the memory port answers to one MemWrite (00_scope.md R13). -/
inductive PortAnswer where
  | accept
  | reject
  deriving DecidableEq, Repr

/-- The outputs the host may read (R32 to R35). -/
inductive Output where
  | status
  | errinfo
  | encOut
  deriving DecidableEq, Repr

/-- One action of the agents around the block (R21, R31). The list of the actions still to come is the schedule: the
step takes the first one. -/
inductive Input where
  /-- The host writes a command word to CMD (R36). -/
  | write (w : Word32)
  /-- The host reads an output (R31). -/
  | read (o : Output)
  /-- The host writes STATUS, which has no effect (R32). -/
  | writeStatus (w : Word32)
  /-- The host does nothing: the block takes its enabled step, if it has one (R31). -/
  | wait
  /-- A reset of the block (70_reset_and_hazards.md R230). -/
  | reset
  /-- The CPU executes an A64-SYS word (30_encoding.md R98, 42_sequencer.md R178). -/
  | cpu (w : Word32)
  deriving DecidableEq, Repr

/-- The whole state the spec gives the machine, its platform and its configuration. -/
structure State where
  /-- R22, R23. -/
  busy : Bool
  /-- R22, R23. -/
  mode : Mode
  /-- R22, R24. -/
  built : Bool
  /-- R22, R25. -/
  enabled : Bool
  /-- R22, R26. -/
  err : Bool
  /-- R22, R26. -/
  errcode : ErrCode
  /-- R22, R26, 60_exceptions.md R204. -/
  errinfo : Word64
  /-- R22, R27: the index of the next INIT write. -/
  ipc : BitVec 17
  /-- R22, R28: the index of the next µop. -/
  upc : BitVec 4
  /-- R22, R29. -/
  tmp : Word64
  /-- R22, R29. -/
  ps : BitVec 3
  /-- R22, R30. -/
  encOut : Word64
  /-- Physical memory (R38): the bytes something has written, at rising addresses. -/
  mem : List Host.Cell
  /-- R40. -/
  mairEl2 : Word64
  /-- R42. -/
  tcrEl2 : Word64
  /-- R45. -/
  ttbr0El2 : Word64
  /-- R47. -/
  sctlrEl2 : Word64
  /-- R40. -/
  mairEl3 : Word64
  /-- R42. -/
  tcrEl3 : Word64
  /-- R45. -/
  ttbr0El3 : Word64
  /-- R47. -/
  sctlrEl3 : Word64
  /-- R44, the platform's MMFR0 (R10): read-only. -/
  idAa64mmfr0El1 : Word64
  /-- X0 to X30 (30_encoding.md R95). -/
  x : Vector Word64 31
  /-- R51. -/
  ctx : Ctx
  /-- R51, 20_memory.md R71. -/
  walkerSync : Bool
  /-- CUR_EL (R10). -/
  curEl : Fin 4
  /-- TLB_CLEAN (R10, 70_reset_and_hazards.md R236). -/
  tlbClean : Bool
  /-- CACHE_CLEAN (R10, R236). -/
  cacheClean : Bool
  /-- The memory port's answers to the next MemWrites, in order; when none is left it accepts (R13, log entry 6). -/
  memPort : List PortAnswer
  /-- R9, R37: constant. -/
  cfg : Config
  /-- The schedule (R31, log entry 5): the actions of the host and the CPU still to come. -/
  inputs : List Input
  deriving DecidableEq, Repr

/-- Why the machine stops. -/
inductive Fault where
  /-- Raised by an MSR or MRS the CPU executes outside SEQ below the register's exception level: the CPU takes an
  Undefined Instruction exception, whose entry is out of scope (R200, R209; log entry 14). Safe: the machine stops. -/
  | undefinedInstruction
  /-- Raised by a block step in a state with busy = 1 and mode = NONE, which no run reaches (R23; log entry 16). Safe. -/
  | busyWithoutCommand
  /-- Raised by an INIT step whose ipc is past the last entry, which no run reaches (R27; log entry 16). Safe. -/
  | initPastEnd
  /-- Raised by a SEQ step with upc past u9 or VARIANT.EL outside {2, 3}, which no run reaches (R28, R202; log entry
  16). Safe. -/
  | noMicroOp
  /-- Raised by a MemWrite beyond the 64-bit address space, which no run reaches (R38, R66; log entry 16).
  Safe. -/
  | noSuchAddress
  deriving DecidableEq, Repr

/-- Why an instruction has no meaning here. -/
inductive Refusal where
  /-- Raised by no arm of exec: every instruction of the table has its meaning. Safe. -/
  | notModelled (mnemonic : String)
  /-- Raised when the CPU is given an A64 word that is no row of the table (30_encoding.md R95 to R97): the spec says
  nothing of it (log entry 15). Safe. -/
  | notA64Sys (w : Word32)
  deriving DecidableEq, Repr

/-- The state after reset (R52). The block's registers, ctx.mmu_on and walker_sync have the spec's values; the system
registers, X registers and ctx values, which R52 leaves unspecified, those of log entries 2, 3 and 24 (DESIGN CHOICE);
the platform and configuration those of the common start state of 95_test_vectors.md (log entries 1 and 3). -/
def State.reset : State where
  busy := false
  mode := .none
  built := false
  enabled := false
  err := false
  errcode := .none
  errinfo := 0
  ipc := 0
  upc := 0
  tmp := 0
  ps := 0
  encOut := 0
  mem := []
  mairEl2 := 0
  tcrEl2 := 0
  ttbr0El2 := 0
  sctlrEl2 := 0x30C50830
  mairEl3 := 0
  tcrEl3 := 0
  ttbr0El3 := 0
  sctlrEl3 := 0x30C50830
  idAa64mmfr0El1 := 0x1122
  x := Vector.replicate 31 0
  ctx :=
    { mmuOn := false, mair := 0, tcr := 0, ttbr0 := 0,
      ctl := { a := false, c := false, i := false, wxn := false, ee := false } }
  walkerSync := true
  curEl := 3
  tlbClean := true
  cacheClean := true
  memPort := []
  cfg := Config.common
  inputs := []

end Sys2Proof.Machine
end

