-- ==== Sys2Proof/Machine/Ops.lean ====
section
/-! DEFINITION. The shared operations of the machine: memory and its port (00_scope.md R13), the X registers
(30_encoding.md R95), the system-register port (R14, 20_memory.md R73), the barriers (R69 to R72), error entry
(60_exceptions.md R205, R206) and the block's reset, its only way back (70_reset_and_hazards.md R230). -/

namespace Sys2Proof.Machine

/-! ## Memory -/

/-- One byte of memory; none where nothing has been written (10_state.md R53, log entry 4). -/
def memRead : List Host.Cell → Nat → Option Byte
  | [], _ => none
  | (k, b) :: rest, a => if a < k then none else if a = k then some b else memRead rest a

/-- Writing one byte, keeping the addresses rising. -/
def memWrite : List Host.Cell → Nat → Byte → List Host.Cell
  | [], a, b => [(a, b)]
  | (k, c) :: rest, a, b =>
    if a < k then (a, b) :: (k, c) :: rest
    else if a = k then (a, b) :: rest
    else (k, c) :: memWrite rest a b

/-- Writing bytes at consecutive addresses. -/
def memWriteBytes : List Host.Cell → Nat → List Byte → List Host.Cell
  | m, _, [] => m
  | m, a, b :: bs => memWriteBytes (memWrite m a b) (a + 1) bs

/-- Reading n bytes at consecutive addresses, if every one has a value. -/
def memReadBytes (m : List Host.Cell) : Nat → Nat → Option (List Byte)
  | _, 0 => some []
  | a, n + 1 =>
    match memRead m a, memReadBytes m (a + 1) n with
    | some b, some bs => some (b :: bs)
    | _, _ => none

/-- Byte k of a doubleword, v[8k+7:8k] (R13, 20_memory.md R60). -/
def byteOf (v : Word64) (k : Nat) : Byte := v.extractLsb' (8 * k) 8

/-- The eight bytes of a doubleword, lowest address first: little-endian (R60). -/
def bytesOfWord (v : Word64) : List Byte :=
  [byteOf v 0, byteOf v 1, byteOf v 2, byteOf v 3, byteOf v 4, byteOf v 5, byteOf v 6, byteOf v 7]

/-- The number that bytes spell, lowest address first (R60). -/
def numberOfBytes : List Byte → Nat
  | [] => 0
  | b :: bs => b.toNat + 256 * numberOfBytes bs

/-- Mem64[a] of 41_initializer.md R150 and MemRead(a, 8) of R13: the little-endian value of bytes a to a+7. -/
def memReadWord (m : List Host.Cell) (a : Nat) : Option Word64 :=
  (memReadBytes m a 8).map fun bs => BitVec.ofNat 64 (numberOfBytes bs)

/-- Addresses strictly rising from a lower bound, and inside the 64-bit address space (R38). -/
def memRising : Nat → List Host.Cell → Bool
  | _, [] => true
  | lo, (a, _) :: rest => decide (lo ≤ a) && decide (a < 2 ^ 64) && memRising (a + 1) rest

/-- The canonical form of memory. No listed byte equals what an unlisted address reads as, since that is no value. -/
def memWf (m : List Host.Cell) : Bool := memRising 0 m

/-- The byte of the machine's memory at an address. -/
def State.readByte (s : State) (a : Nat) : Option Byte := memRead s.mem a

/-- Mem64[a] of the machine's memory (R150). -/
def State.readWord (s : State) (a : Nat) : Option Word64 := memReadWord s.mem a

/-- What MemWrite answers (R13). -/
inductive WriteResult where
  | ok (s : State)
  | reject (s : State)

/-- MemWrite(addr, 8, v) (R13, R60, R64): the platform's port answers first; a rejected write changes no memory
(41_initializer.md R145). -/
def State.memWrite64 (s : State) (addr : Nat) (v : Word64) : WriteResult :=
  match s.memPort with
  | [] => .ok { s with mem := memWriteBytes s.mem addr (bytesOfWord v) }
  | .accept :: rest => .ok { s with mem := memWriteBytes s.mem addr (bytesOfWord v), memPort := rest }
  | .reject :: rest => .reject { s with memPort := rest }

/-! ## The X registers -/

/-- Reading Xn; 31 names XZR, which reads 0 (R95). No decoded instruction holds a number above 31 (log
entry 19). -/
def State.readX (s : State) (n : Nat) : Word64 := if h : n < 31 then s.x[n] else 0

/-- Writing Xn; a write of XZR is discarded (R95). -/
def State.writeX (s : State) (n : Nat) (v : Word64) : State :=
  if h : n < 31 then { s with x := s.x.set n v h } else s

/-! ## The system-register port -/

/-- The lowest exception level that may access a register (20_memory.md R73). -/
def minEl : SysReg → Nat
  | .mair .el2 => 2
  | .mair .el3 => 3
  | .tcr .el2 => 2
  | .tcr .el3 => 3
  | .ttbr0 .el2 => 2
  | .ttbr0 .el3 => 3
  | .sctlr .el2 => 2
  | .sctlr .el3 => 3
  | .idAa64mmfr0El1 => 1

/-- The value a system register holds (10_state.md R39). -/
def State.sysReg (s : State) : SysReg → Word64
  | .mair .el2 => s.mairEl2
  | .mair .el3 => s.mairEl3
  | .tcr .el2 => s.tcrEl2
  | .tcr .el3 => s.tcrEl3
  | .ttbr0 .el2 => s.ttbr0El2
  | .ttbr0 .el3 => s.ttbr0El3
  | .sctlr .el2 => s.sctlrEl2
  | .sctlr .el3 => s.sctlrEl3
  | .idAa64mmfr0El1 => s.idAa64mmfr0El1

/-- A system register given a new value; ID_AA64MMFR0_EL1 is read-only (R44). -/
def State.setSysReg (s : State) (r : SysReg) (v : Word64) : State :=
  match r with
  | .mair .el2 => { s with mairEl2 := v }
  | .mair .el3 => { s with mairEl3 := v }
  | .tcr .el2 => { s with tcrEl2 := v }
  | .tcr .el3 => { s with tcrEl3 := v }
  | .ttbr0 .el2 => { s with ttbr0El2 := v }
  | .ttbr0 .el3 => { s with ttbr0El3 := v }
  | .sctlr .el2 => { s with sctlrEl2 := v }
  | .sctlr .el3 => { s with sctlrEl3 := v }
  | .idAa64mmfr0El1 => s

/-- Whether the port answers ok: not when CUR_EL is below the register's level (R73). -/
def State.portOk (s : State) (r : SysReg) : Bool := decide (minEl r ≤ s.curEl.val)

/-- SysRegWrite(reg, v) (R14, R73): none is the answer `fault`. -/
def State.sysRegWrite (s : State) (r : SysReg) (v : Word64) : Option State :=
  if s.portOk r then some (s.setSysReg r v) else none

/-- SysRegRead(reg) (R14, R73): none is the answer `fault`. -/
def State.sysRegRead (s : State) (r : SysReg) : Option Word64 :=
  if s.portOk r then some (s.sysReg r) else none

/-! ## Barriers -/

/-- The exception level of the register set that VARIANT.EL selects, if it is one (42_sequencer.md R175). -/
def elOf : Nat → Option El
  | 2 => some .el2
  | 3 => some .el3
  | _ => none

/-- Barrier(DSB, scope) (20_memory.md R69, R71): every MemWrite made so far is visible to the walker, whatever the
scope. -/
def State.dsb (s : State) (_scope : DsbScope) : State := { s with walkerSync := true }

/-- A, C, I, WXN and EE of an SCTLR value (10_state.md R47). -/
def sctlrControls (v : Word64) : AccessControls :=
  { a := v.getLsbD 1, c := v.getLsbD 2, i := v.getLsbD 12, wxn := v.getLsbD 19, ee := v.getLsbD 25 }

/-- The registers of one level as a translation context (R70, R72); SCTLR.M is bit 0 (10_state.md R47). -/
def State.ctxOf (s : State) (e : El) : Ctx :=
  { mmuOn := (s.sysReg (.sctlr e)).getLsbD 0, mair := s.sysReg (.mair e), tcr := s.sysReg (.tcr e),
    ttbr0 := s.sysReg (.ttbr0 e), ctl := sctlrControls (s.sysReg (.sctlr e)) }

/-- Barrier(ISB) (R70, R72): the context becomes the current register values of VARIANT.EL. With no such register set
there is nothing to copy (log entry 9). -/
def State.isb (s : State) : State :=
  match elOf s.cfg.variant.el with
  | some e => { s with ctx := s.ctxOf e }
  | none => s

/-! ## Errors and reset -/

/-- `raise Err(code, info)` (60_exceptions.md R205). Once err = 1 no step raises another error, and the first one's
code and word are kept (R26, R206; log entry 17). -/
def State.raise (s : State) (code : ErrCode) (info : Word64) : State :=
  if s.err then s
  else { s with err := true, errcode := code, errinfo := info, busy := false, mode := .none }

/-- A reset of the block (70_reset_and_hazards.md R230, 10_state.md R52): every internal register of R22, and nothing
else: not memory, not a system register, not the CPU's hidden state (log entry 10). There is no other return from an
error (R206). -/
def State.blockReset (s : State) : State :=
  { s with
    busy := false, mode := .none, built := false, enabled := false, err := false, errcode := .none, errinfo := 0,
    ipc := 0, upc := 0, tmp := 0, ps := 0, encOut := 0 }

end Sys2Proof.Machine
end

