-- ==== Sys2Proof/Machine/Operands.lean ====
section
/-! DEFINITION. The operands of SEQ's µops: the values of MAIR, TCR, TTBR0 and SCTLR that 10_state.md R41 to R48 fix, and
the fields of ID_AA64MMFR0_EL1 and TCR that they and the walk read (R42, R44). -/

namespace Sys2Proof.Machine

/-- MAIR_VAL (R41): Attr0 = 0xFF, Attr1 = 0x04, Attr2 = 0x44. -/
def mairVal : Word64 := 0x00000000004404FF

/-- TCR_BASE (R43): the value of R42 with PS = 0. -/
def tcrBase : Word64 := 0x0000000080807520

/-- The value of µop u2 (R43, 42_sequencer.md R165): PS stands in [18:16]. -/
def tcrVal (ps : BitVec 3) : Word64 := tcrBase ||| (ps.setWidth 64 <<< 16)

/-- TTBR_VAL (R46): the root table's address with bit 0 set. -/
def ttbrVal (tableBase : Word64) : Word64 := tableBase ||| 1

/-- SCTLR_SET (R48): M, C and I. -/
def sctlrSet : Word64 := 0x0000000000001005

/-- SCTLR_CLR (R48): A, WXN and EE. -/
def sctlrClr : Word64 := 0x0000000002080002

/-- The value of µop u7 (R48, 42_sequencer.md R170). -/
def sctlrVal (tmp : Word64) : Word64 := (tmp ||| sctlrSet) &&& ~~~sctlrClr

/-- ID_AA64MMFR0_EL1.PARange (R44). -/
def paRange (v : Word64) : Nat := bits v 3 0

/-- The highest PARange that is not reserved (R44, R164). -/
abbrev paRangeMax : Nat := 0b0110

/-- The physical address size in bits that a PARange or TCR.PS value names (R44); none where it is reserved. -/
def paBits : Nat → Option Nat
  | 0b0000 => some 32
  | 0b0001 => some 36
  | 0b0010 => some 40
  | 0b0011 => some 42
  | 0b0100 => some 44
  | 0b0101 => some 48
  | 0b0110 => some 52
  | _ => none

/-- Attr n of a MAIR value (10_state.md R40): byte n. -/
def mairAttr (mair : Word64) (n : Nat) : Nat := bits mair (8 * n + 7) (8 * n)

/-- TCR.T0SZ (R42). -/
def tcrT0sz (v : Word64) : Nat := bits v 5 0

/-- TCR.TG0 (R42). -/
def tcrTg0 (v : Word64) : Nat := bits v 15 14

/-- TCR.PS (R42). -/
def tcrPs (v : Word64) : Nat := bits v 18 16

end Sys2Proof.Machine
end

