-- ==== Sys2Proof/Machine/Sequencer.lean ====
section
/-! DEFINITION. SEQ, the micro-program of ENABLE (42_sequencer.md R161, R162): the A64 word of every µop (30_encoding.md
R98), when an instruction runs as the µop upc points at, and what the µops do to the block's registers. -/

namespace Sys2Proof.Machine

/-- The word of µop u4 (R98): the scope is DSB1_SCOPE. -/
def dsb1Word : DsbScope → Word32
  | .sy => 0xD5033F9F
  | .ish => 0xD5033B9F

/-- The words of µops u0 to u9 (R98). -/
def uopWords (scope : DsbScope) : El → List Word32
  | .el3 =>
    [0xD51EA200, 0xD5380700, 0xD51E2040, 0xD51E2000, dsb1Word scope, 0xD5033FDF, 0xD53E1000, 0xD51E1000, 0xD5033F9F,
      0xD5033FDF]
  | .el2 =>
    [0xD51CA200, 0xD5380700, 0xD51C2040, 0xD51C2000, dsb1Word scope, 0xD5033FDF, 0xD53C1000, 0xD51C1000, 0xD5033F9F,
      0xD5033FDF]

/-- The word SEQ fetches at upc, if VARIANT.EL selects a register set and upc a µop (R98, R175). -/
def uopWord (c : Config) (upc : Nat) : Option Word32 :=
  match elOf c.variant.el with
  | some e => (uopWords c.dsb1Scope e)[upc]?
  | none => none

/-- The instruction of the word at upc. -/
def uopInstr (c : Config) (upc : Nat) : Option Instr :=
  match uopWord c upc with
  | some w =>
    match decodeA64 w with
    | .ok i => some i
    | .error _ => none
  | none => none

/-- Whether an instruction executed now is the µop upc points at in a running ENABLE (R161, R162, R178). Only then does
it act on SEQ's registers; a CPU executing the same word at another time only does what the word says. -/
def State.seqRuns (s : State) (i : Instr) : Bool :=
  s.busy && decide (s.mode = .enable) && decide (uopInstr s.cfg s.upc.toNat = some i)

/-- A µop that raised no error (R162): u9 completes the ENABLE, every other one advances upc. -/
def State.uopDone (s : State) : State :=
  if s.upc = 9 then { s with busy := false, mode := .none, enabled := true, upc := 10 }
  else { s with upc := s.upc + 1 }

/-- A register-writing µop u (R163, R165, R166, R170): the datapath supplies X0 (R98, log entry 7), the port writes the
register, or SYSREG is raised with the µop's index. -/
def seqWrite (u : Nat) (r : SysReg) (v : Word64) (s : State) : State :=
  match (s.writeX 0 v).sysRegWrite r v with
  | some t => t.uopDone
  | none => s.raise .sysreg (BitVec.ofNat 64 u)

/-- µop u1 (R164): the value goes to X0 and tmp, PARange is checked, and ps takes its low three bits (log entry 8). -/
def seqReadMmfr0 (s : State) : State :=
  match s.sysRegRead .idAa64mmfr0El1 with
  | none => s.raise .sysreg 1
  | some v =>
    let t := { s.writeX 0 v with tmp := v }
    if paRangeMax < paRange v then t.raise .parange v
    else ({ t with ps := v.extractLsb' 0 3 }).uopDone

/-- µop u6 (R169): the value of SCTLR(e) goes to X0 and tmp. -/
def seqReadSctlr (r : SysReg) (s : State) : State :=
  match s.sysRegRead r with
  | none => s.raise .sysreg 6
  | some v => ({ s.writeX 0 v with tmp := v }).uopDone

end Sys2Proof.Machine
end

