-- ==== Sys2Proof/Machine/Barrier.lean ====
section
/-! DEFINITION. The barrier rows of A64-SYS (30_encoding.md R97; 20_memory.md R69 to R72): DSB SY (µops u4 and u8), DSB
ISH (µop u4) and ISB (µops u5 and u9). Run as SEQ's current µop they also advance or complete the ENABLE
(42_sequencer.md R162, R167, R168, R171, R172; log entry 13). -/

namespace Sys2Proof.Machine

/-- A barrier's effect, followed by R162 where the barrier runs as SEQ's µop. -/
def barrier (i : Instr) (effect : State → State) (s : State) : State :=
  if s.seqRuns i then (effect s).uopDone else effect s

/-- DSB SY (R167, R171). -/
def execDsbSy (s : State) : Host.Outcome State Fault Refusal := .next (barrier .dsbSy (fun t => t.dsb .sy) s)

/-- DSB ISH (R167). -/
def execDsbIsh (s : State) : Host.Outcome State Fault Refusal := .next (barrier .dsbIsh (fun t => t.dsb .ish) s)

/-- ISB (R168, R172). -/
def execIsb (s : State) : Host.Outcome State Fault Refusal := .next (barrier .isb State.isb s)

end Sys2Proof.Machine
end

