-- ==== Sys2Proof/Machine/Descriptor.lean ====
section
/-! DEFINITION. ENC, the descriptor encoder (40_encoder.md): the named constants (R114), the encoder functions (R113,
R115 to R119), and the two descriptor formats as records of named fields (R111, R112). ENC is a pure function of its
index and the configuration (R110). -/

namespace Sys2Proof.Machine

/-! ## Named constants (R114) -/

def validTable : Word64 := 0x3
def validPage : Word64 := 0x3
def attrMem : Word64 := 0x0
def attrDev : Word64 := 0x4
def attrNc : Word64 := 0x8
def flagNs : Word64 := 0x20
def apRwAll : Word64 := 0x40
def shOsh : Word64 := 0x200
def shIsh : Word64 := 0x300
def flagAf : Word64 := 0x400
def flagPxn : Word64 := 0x0020000000000000
def flagXn : Word64 := 0x0040000000000000

/-- RAM_ATTRS (R114), 0x743. -/
def ramAttrs : Word64 := flagAf ||| shIsh ||| apRwAll ||| attrMem ||| validPage

/-- DEV_ATTRS (R114), 0x0060000000000647. -/
def devAttrs : Word64 := flagXn ||| flagPxn ||| flagAf ||| shOsh ||| apRwAll ||| attrDev ||| validPage

/-! ## Encoder functions -/

/-- The two classes of leaf entries (R113). -/
inductive PageClass where
  | ram
  | dev
  deriving DecidableEq, Repr

/-- class(g) (R113). -/
def classOf (c : Config) (g : Nat) : PageClass :=
  if c.variant.devLo ≤ g ∧ g < c.variant.devHi then .dev else .ram

/-- leaf_base(k) (R115), in unbounded integers (00_scope.md R11). -/
def leafBase (c : Config) (k : Nat) : Nat := c.tableBase.toNat + tableBytes * (k + 1)

/-- enc_table(k) (R115). -/
def encTableDesc (c : Config) (k : Nat) : Word64 := BitVec.ofNat 64 (leafBase c k) ||| validTable

/-- enc_page_ram(g) (R116). -/
def encPageRam (g : Nat) : Word64 := (BitVec.ofNat 64 g <<< 16) ||| ramAttrs

/-- enc_page_dev(g) (R117). -/
def encPageDev (c : Config) (g : Nat) : Word64 :=
  (BitVec.ofNat 64 g <<< 16) ||| devAttrs ||| (if c.variant.devNs then flagNs else 0)

/-- enc_leaf(g) (R118). -/
def encLeaf (c : Config) (g : Nat) : Word64 :=
  match classOf c g with
  | .dev => encPageDev c g
  | .ram => encPageRam g

/-- enc_root(s) (R119). -/
def encRoot (c : Config) (s : Nat) : Word64 := if s < rootUsed then encTableDesc c s else 0

/-- entry(i) of 41_initializer.md R142. -/
def entry (c : Config) (i : Nat) : Word64 :=
  if i < rootEntries then encRoot c i else encLeaf c (i - rootEntries)

/-- addr(i) of 41_initializer.md R143, in unbounded integers. -/
def entryAddr (c : Config) (i : Nat) : Nat := c.tableBase.toNat + 8 * i

/-! ## The formats, field by field -/

/-- The table descriptor of R111, highest field first. -/
structure TableDescriptor where
  nsTable : BitVec 1
  apTable : BitVec 2
  uxnTable : BitVec 1
  pxnTable : BitVec 1
  ignoredHigh : BitVec 8
  res0 : BitVec 3
  nextTable : BitVec 32
  ignoredLow : BitVec 14
  validType : BitVec 2
  deriving DecidableEq, Repr

/-- The page descriptor of R112, highest field first. -/
structure PageDescriptor where
  ignored : BitVec 5
  software : BitVec 4
  uxn : BitVec 1
  pxn : BitVec 1
  contiguous : BitVec 1
  dbm : BitVec 1
  res0High : BitVec 3
  outputAddress : BitVec 32
  res0Low : BitVec 4
  ng : BitVec 1
  af : BitVec 1
  sh : BitVec 2
  ap : BitVec 2
  ns : BitVec 1
  attrIndx : BitVec 3
  validType : BitVec 2
  deriving DecidableEq, Repr

/-- The fields of a table descriptor (R111). -/
def tableFields (d : Word64) : TableDescriptor where
  nsTable := d.extractLsb' 63 1
  apTable := d.extractLsb' 61 2
  uxnTable := d.extractLsb' 60 1
  pxnTable := d.extractLsb' 59 1
  ignoredHigh := d.extractLsb' 51 8
  res0 := d.extractLsb' 48 3
  nextTable := d.extractLsb' 16 32
  ignoredLow := d.extractLsb' 2 14
  validType := d.extractLsb' 0 2

/-- The fields of a page descriptor (R112). -/
def pageFields (d : Word64) : PageDescriptor where
  ignored := d.extractLsb' 59 5
  software := d.extractLsb' 55 4
  uxn := d.extractLsb' 54 1
  pxn := d.extractLsb' 53 1
  contiguous := d.extractLsb' 52 1
  dbm := d.extractLsb' 51 1
  res0High := d.extractLsb' 48 3
  outputAddress := d.extractLsb' 16 32
  res0Low := d.extractLsb' 12 4
  ng := d.extractLsb' 11 1
  af := d.extractLsb' 10 1
  sh := d.extractLsb' 8 2
  ap := d.extractLsb' 6 2
  ns := d.extractLsb' 5 1
  attrIndx := d.extractLsb' 2 3
  validType := d.extractLsb' 0 2

/-- The column "value ENC writes" of R111, for leaf table k. -/
def tableColumn (c : Config) (k : Nat) : TableDescriptor where
  nsTable := 0
  apTable := 0
  uxnTable := 0
  pxnTable := 0
  ignoredHigh := 0
  res0 := 0
  nextTable := BitVec.ofNat 32 (leafBase c k / 2 ^ 16)
  ignoredLow := 0
  validType := 0b11

/-- The column "RAM page" of R112, for leaf global index g. -/
def ramColumn (g : Nat) : PageDescriptor where
  ignored := 0
  software := 0
  uxn := 0
  pxn := 0
  contiguous := 0
  dbm := 0
  res0High := 0
  outputAddress := BitVec.ofNat 32 g
  res0Low := 0
  ng := 0
  af := 1
  sh := 0b11
  ap := 0b01
  ns := 0
  attrIndx := 0
  validType := 0b11

/-- The column "device page" of R112, for leaf global index g. -/
def devColumn (c : Config) (g : Nat) : PageDescriptor where
  ignored := 0
  software := 0
  uxn := 1
  pxn := 1
  contiguous := 0
  dbm := 0
  res0High := 0
  outputAddress := BitVec.ofNat 32 g
  res0Low := 0
  ng := 0
  af := 1
  sh := 0b10
  ap := 0b01
  ns := BitVec.ofBool c.variant.devNs
  attrIndx := 1
  validType := 0b11

end Sys2Proof.Machine
end

