-- ==== Sys2Proof/Machine/Accept.lean ====
section
/-! DEFINITION. Command acceptance (60_exceptions.md R202, R203): the checks one command word meets, in their order, and
the error entry or the effect that follows. -/

namespace Sys2Proof.Machine

/-- An error cause with its ERRINFO word (R201, R204). -/
structure Err where
  code : ErrCode
  info : Word64
  deriving DecidableEq, Repr

/-- ALIGN and CONFIG (R202; 20_memory.md R62, R66; 41_initializer.md R141). The sum is in unbounded integers. -/
def configError (c : Config) : Option Err :=
  if bits c.tableBase 15 0 ≠ 0 then some { code := .align, info := c.tableBase }
  else if c.tableBase.toNat + regionBytes > 2 ^ 48 then some { code := .config, info := 1 }
  else if ¬(c.variant.devLo ≤ c.variant.devHi ∧ c.variant.devHi ≤ mappedPages) then some { code := .config, info := 2 }
  else if ¬(c.variant.el = 2 ∨ c.variant.el = 3) then some { code := .config, info := 3 }
  else none

/-- The command word as ERRINFO records it (R204). -/
def errWord (w : Word32) : Word64 := w.setWidth 64

/-- Which of R202's checks a command meets beside the common ones: op 1 and 2 are refused once enabled, op 2 needs
built, op 4 has a range. -/
structure CommandChecks where
  oneShot : Bool
  needsBuilt : Bool
  page : Option Nat

/-- The first cause, in R202's order, that applies to a command word that decodes, in a state with err = 0. -/
def acceptError (w : Word32) (k : CommandChecks) (s : State) : Option Err :=
  if s.busy then some { code := .busy, info := errWord w }
  else if k.oneShot ∧ s.enabled then some { code := .reentry, info := errWord w }
  else if k.needsBuilt ∧ ¬s.built then some { code := .order, info := errWord w }
  else
    match configError s.cfg with
    | some e => some e
    | none =>
      match k.page with
      | some g => if mappedPages ≤ g then some { code := .range, info := BitVec.ofNat 64 g } else none
      | none => none

/-- The acceptance step of a command word that decodes (R202): ignored once err = 1 (R206), else the first error, else
the command's own effect. -/
def accept (w : Word32) (k : CommandChecks) (effect : State → State) (s : State) : State :=
  if s.err then s
  else
    match acceptError w k s with
    | some e => s.raise e.code e.info
    | none => effect s

/-- The acceptance step of a word that is no command (R202): ignored, BUSY or BADCMD. -/
def acceptBadWord (w : Word32) (s : State) : State :=
  if s.err then s
  else if s.busy then s.raise .busy (errWord w)
  else s.raise .badcmd (errWord w)

end Sys2Proof.Machine
end

