-- ==== Sys2Proof/Machine/HostCmd.lean ====
section
/-! DEFINITION. The HOSTCMD family: the acceptance steps of BUILD (41_initializer.md R140), ENABLE (42_sequencer.md
R160), ENC.TABLE (40_encoder.md R120) and ENC.PAGE (R121). The steps a running BUILD or ENABLE then takes are in
Initializer and Sequencer. -/

namespace Sys2Proof.Machine

/-- What an accepted BUILD does (R140). -/
def startBuild (s : State) : State := { s with built := false, ipc := 0, busy := true, mode := .build }

/-- What an accepted ENABLE does (R160). -/
def startEnable (s : State) : State := { s with upc := 0, busy := true, mode := .enable }

/-- BUILD (R140). -/
def execBuild (s : State) : Host.Outcome State Fault Refusal :=
  .next (accept (encode .build) { oneShot := true, needsBuilt := false, page := none } startBuild s)

/-- ENABLE (R160). -/
def execEnable (s : State) : Host.Outcome State Fault Refusal :=
  .next (accept (encode .enable) { oneShot := true, needsBuilt := true, page := none } startEnable s)

/-- ENC.TABLE #slot (R120): enc_out <- enc_root(slot). -/
def execEncTable (slot : Nat) (s : State) : Host.Outcome State Fault Refusal :=
  .next (accept (encode (.encTable slot)) { oneShot := false, needsBuilt := false, page := none }
    (fun t => { t with encOut := encRoot t.cfg slot }) s)

/-- ENC.PAGE #g (R121): enc_out <- enc_leaf(g), or RANGE. -/
def execEncPage (g : Nat) (s : State) : Host.Outcome State Fault Refusal :=
  .next (accept (encode (.encPage g)) { oneShot := false, needsBuilt := false, page := some g }
    (fun t => { t with encOut := encLeaf t.cfg g }) s)

end Sys2Proof.Machine
end

