-- ==== Sys2Proof/Machine/SysMove.lean ====
section
/-! DEFINITION. The MSR and MRS rows of A64-SYS (30_encoding.md R95, R96). Run as SEQ's current µop, an instruction is
that µop (42_sequencer.md R163 to R170); run by the CPU at any other time it is the move of R95 through the same port,
and an access below the register's level is an Undefined Instruction exception of the CPU (60_exceptions.md R209; log
entries 13 and 14). -/

namespace Sys2Proof.Machine

/-- MSR of a register outside SEQ (R95, R73). -/
def cpuMsr (r : SysReg) (rt : Nat) (s : State) : Host.Outcome State Fault Refusal :=
  match s.sysRegWrite r (s.readX rt) with
  | some t => .next t
  | none => .fault .undefinedInstruction

/-- MRS of a register outside SEQ (R95, R73). -/
def cpuMrs (r : SysReg) (rt : Nat) (s : State) : Host.Outcome State Fault Refusal :=
  match s.sysRegRead r with
  | some v => .next (s.writeX rt v)
  | none => .fault .undefinedInstruction

/-- MSR MAIR_EL3, Xt; µop u0 (R163). -/
def execMsrMairEl3 (rt : Nat) (s : State) : Host.Outcome State Fault Refusal :=
  if s.seqRuns (.msrMairEl3 rt) then .next (seqWrite 0 (.mair .el3) mairVal s) else cpuMsr (.mair .el3) rt s

/-- MSR TCR_EL3, Xt; µop u2 (R165). -/
def execMsrTcrEl3 (rt : Nat) (s : State) : Host.Outcome State Fault Refusal :=
  if s.seqRuns (.msrTcrEl3 rt) then .next (seqWrite 2 (.tcr .el3) (tcrVal s.ps) s) else cpuMsr (.tcr .el3) rt s

/-- MSR TTBR0_EL3, Xt; µop u3 (R166). -/
def execMsrTtbr0El3 (rt : Nat) (s : State) : Host.Outcome State Fault Refusal :=
  if s.seqRuns (.msrTtbr0El3 rt) then .next (seqWrite 3 (.ttbr0 .el3) (ttbrVal s.cfg.tableBase) s)
  else cpuMsr (.ttbr0 .el3) rt s

/-- MSR SCTLR_EL3, Xt; µop u7 (R170). -/
def execMsrSctlrEl3 (rt : Nat) (s : State) : Host.Outcome State Fault Refusal :=
  if s.seqRuns (.msrSctlrEl3 rt) then .next (seqWrite 7 (.sctlr .el3) (sctlrVal s.tmp) s)
  else cpuMsr (.sctlr .el3) rt s

/-- MRS Xt, SCTLR_EL3; µop u6 (R169). -/
def execMrsSctlrEl3 (rt : Nat) (s : State) : Host.Outcome State Fault Refusal :=
  if s.seqRuns (.mrsSctlrEl3 rt) then .next (seqReadSctlr (.sctlr .el3) s) else cpuMrs (.sctlr .el3) rt s

/-- MSR MAIR_EL2, Xt; µop u0 (R163). -/
def execMsrMairEl2 (rt : Nat) (s : State) : Host.Outcome State Fault Refusal :=
  if s.seqRuns (.msrMairEl2 rt) then .next (seqWrite 0 (.mair .el2) mairVal s) else cpuMsr (.mair .el2) rt s

/-- MSR TCR_EL2, Xt; µop u2 (R165). -/
def execMsrTcrEl2 (rt : Nat) (s : State) : Host.Outcome State Fault Refusal :=
  if s.seqRuns (.msrTcrEl2 rt) then .next (seqWrite 2 (.tcr .el2) (tcrVal s.ps) s) else cpuMsr (.tcr .el2) rt s

/-- MSR TTBR0_EL2, Xt; µop u3 (R166). -/
def execMsrTtbr0El2 (rt : Nat) (s : State) : Host.Outcome State Fault Refusal :=
  if s.seqRuns (.msrTtbr0El2 rt) then .next (seqWrite 3 (.ttbr0 .el2) (ttbrVal s.cfg.tableBase) s)
  else cpuMsr (.ttbr0 .el2) rt s

/-- MSR SCTLR_EL2, Xt; µop u7 (R170). -/
def execMsrSctlrEl2 (rt : Nat) (s : State) : Host.Outcome State Fault Refusal :=
  if s.seqRuns (.msrSctlrEl2 rt) then .next (seqWrite 7 (.sctlr .el2) (sctlrVal s.tmp) s)
  else cpuMsr (.sctlr .el2) rt s

/-- MRS Xt, SCTLR_EL2; µop u6 (R169). -/
def execMrsSctlrEl2 (rt : Nat) (s : State) : Host.Outcome State Fault Refusal :=
  if s.seqRuns (.mrsSctlrEl2 rt) then .next (seqReadSctlr (.sctlr .el2) s) else cpuMrs (.sctlr .el2) rt s

/-- MRS Xt, ID_AA64MMFR0_EL1; µop u1 (R164). -/
def execMrsIdAa64mmfr0El1 (rt : Nat) (s : State) : Host.Outcome State Fault Refusal :=
  if s.seqRuns (.mrsIdAa64mmfr0El1 rt) then .next (seqReadMmfr0 s) else cpuMrs .idAa64mmfr0El1 rt s

end Sys2Proof.Machine
end

