-- ==== Sys2Proof/Machine/Dispatch.lean ====
section
/-! DEFINITION. exec: one arm per row of spec/opcode_table.json. -/

namespace Sys2Proof.Machine

def exec (i : Instr) (s : State) : Host.Outcome State Fault Refusal :=
  match i with
  | .build => Sys2Proof.Machine.execBuild s
  | .enable => Sys2Proof.Machine.execEnable s
  | .encTable slot => Sys2Proof.Machine.execEncTable slot s
  | .encPage g => Sys2Proof.Machine.execEncPage g s
  | .msrMairEl3 rt => Sys2Proof.Machine.execMsrMairEl3 rt s
  | .msrTcrEl3 rt => Sys2Proof.Machine.execMsrTcrEl3 rt s
  | .msrTtbr0El3 rt => Sys2Proof.Machine.execMsrTtbr0El3 rt s
  | .msrSctlrEl3 rt => Sys2Proof.Machine.execMsrSctlrEl3 rt s
  | .mrsSctlrEl3 rt => Sys2Proof.Machine.execMrsSctlrEl3 rt s
  | .msrMairEl2 rt => Sys2Proof.Machine.execMsrMairEl2 rt s
  | .msrTcrEl2 rt => Sys2Proof.Machine.execMsrTcrEl2 rt s
  | .msrTtbr0El2 rt => Sys2Proof.Machine.execMsrTtbr0El2 rt s
  | .msrSctlrEl2 rt => Sys2Proof.Machine.execMsrSctlrEl2 rt s
  | .mrsSctlrEl2 rt => Sys2Proof.Machine.execMrsSctlrEl2 rt s
  | .mrsIdAa64mmfr0El1 rt => Sys2Proof.Machine.execMrsIdAa64mmfr0El1 rt s
  | .dsbSy => Sys2Proof.Machine.execDsbSy s
  | .dsbIsh => Sys2Proof.Machine.execDsbIsh s
  | .isb => Sys2Proof.Machine.execIsb s

end Sys2Proof.Machine
end

