-- ==== Sys2Proof/Machine/Initializer.lean ====
section
/-! DEFINITION. INIT, one write per step (41_initializer.md R142 to R147). -/

namespace Sys2Proof.Machine

/-- What an accepted write i = ipc leaves (R145): the walker no longer sees everything, ipc advances, and the last write
ends the BUILD. -/
def State.entryWritten (s : State) : State :=
  if s.ipc.toNat + 1 = totalEntries then
    { s with walkerSync := false, ipc := s.ipc + 1, busy := false, mode := .none, built := true }
  else { s with walkerSync := false, ipc := s.ipc + 1 }

/-- One INIT step, enabled when busy = 1 and mode = BUILD (R145). walker_sync is cleared only for a write that happened
(90_conflicts.md C9). -/
def initStep (s : State) : Host.Outcome State Fault Refusal :=
  let i := s.ipc.toNat
  let addr := entryAddr s.cfg i
  if totalEntries ≤ i then .fault .initPastEnd
  else if 2 ^ 64 < addr + 8 then .fault .noSuchAddress
  else
    match s.memWrite64 addr (entry s.cfg i) with
    | .reject t => .next (t.raise .mem (BitVec.ofNat 64 addr))
    | .ok t => .next t.entryWritten

end Sys2Proof.Machine
end

