-- ==== Sys2Proof/Machine/Run.lean ====
section
/-! DEFINITION. One step of the machine (10_state.md R31): the next action of the schedule, or the block's enabled step
when there is none. Fetching: a command word arrives at CMD, an A64 word at the CPU, and SEQ fetches its µop's word at
upc. -/

namespace Sys2Proof.Machine

/-- A command word arrives at CMD (60_exceptions.md R202). -/
def hostWrite (w : Word32) (s : State) : Host.Outcome State Fault Refusal :=
  match decodeCommand w with
  | .ok i => exec i s
  | .error _ => .next (acceptBadWord w s)

/-- The CPU executes an A64 word (30_encoding.md R98). -/
def cpuWord (w : Word32) (s : State) : Host.Outcome State Fault Refusal :=
  match decodeA64 w with
  | .ok i => exec i s
  | .error _ => .refused (.notA64Sys w)

/-- One SEQ step (42_sequencer.md R162): the µop at upc. -/
def seqStep (s : State) : Host.Outcome State Fault Refusal :=
  match uopInstr s.cfg s.upc.toNat with
  | some i => exec i s
  | none => .fault .noMicroOp

/-- The block's own step: one INIT write or one µop while busy = 1, nothing while idle (R31, 60_exceptions.md R216). -/
def blockStep (s : State) : Host.Outcome State Fault Refusal :=
  if s.busy then
    match s.mode with
    | .none => .fault .busyWithoutCommand
    | .build => initStep s
    | .enable => seqStep s
  else .next s

/-- One action of the agents around the block (R31). Reading an output and writing STATUS (R32) change nothing. -/
def takeInput (a : Input) (s : State) : Host.Outcome State Fault Refusal :=
  match a with
  | .write w => hostWrite w s
  | .read _ => .next s
  | .writeStatus _ => .next s
  | .wait => blockStep s
  | .reset => .next s.blockReset
  | .cpu w => cpuWord w s

/-- One step: the schedule's next action, and the block's own step once the schedule is empty (log entry 5). -/
def machineStep (s : State) : Host.Outcome State Fault Refusal :=
  match s.inputs with
  | [] => blockStep s
  | a :: rest => takeInput a { s with inputs := rest }

/-- Where a word goes so that the next step runs it: an A64-SYS word to the CPU, any other word to CMD. -/
def placeWord (w : Word32) : Input :=
  match decodeA64 w with
  | .ok _ => .cpu w
  | .error _ => .write w

end Sys2Proof.Machine
end

