-- ==== Sys2Proof/Machine/Step.lean ====
section
/-! DEFINITION. The step of the machine and the placing of a word as its next instruction. -/

namespace Sys2Proof.Machine

/-- One atomic step (00_scope.md R15, 10_state.md R31). -/
def step (s : State) : Host.Outcome State Fault Refusal := machineStep s

/-- The state with the instruction of the bits w as the next action of the schedule (log entry 5). -/
def State.withFetchWord (s : State) (nbits w : Nat) : State :=
  { s with inputs := placeWord (tableWord nbits w) :: s.inputs }

end Sys2Proof.Machine
end

