-- ==== Sys2Proof/Machine/Flags.lean ====
section
/-! DEFINITION. The block's outputs: STATUS assembled from the internal registers (10_state.md R32, R33), ERRINFO (R34)
and ENC_OUT (R35). The block has no arithmetic condition flags (00_scope.md R11). -/

namespace Sys2Proof.Machine

/-- The 2-bit value of mode (R22). -/
def modeBits : Mode → BitVec 2
  | .none => 0
  | .build => 1
  | .enable => 2

/-- The 4-bit error code (60_exceptions.md R201). -/
def errBits : ErrCode → BitVec 4
  | .none => 0x0
  | .badcmd => 0x1
  | .busy => 0x2
  | .reentry => 0x3
  | .order => 0x4
  | .align => 0x5
  | .config => 0x6
  | .range => 0x7
  | .parange => 0x8
  | .sysreg => 0x9
  | .mem => 0xA

/-- STATUS (R32): MODE at [13:12], UPC at [11:8], ERRCODE at [7:4], ERR, ENABLED, BUILT, BUSY at [3] to [0], and zeros
above. -/
def State.status (s : State) : Word32 :=
  0#18 ++ modeBits s.mode ++ s.upc ++ errBits s.errcode ++ BitVec.ofBool s.err ++ BitVec.ofBool s.enabled ++
    BitVec.ofBool s.built ++ BitVec.ofBool s.busy

/-- What the host reads from an output (R32, R34, R35), zero-extended to 64 bits. -/
def State.output (s : State) : Output → Word64
  | .status => s.status.setWidth 64
  | .errinfo => s.errinfo
  | .encOut => s.encOut

end Sys2Proof.Machine
end

