-- ==== Sys2Proof/Machine/Walk.lean ====
section
/-! DEFINITION. The consumer: how the CPU's MMU translates an access through the tables the block leaves (20_memory.md
R61, R70 to R72, R77 to R81; 70_reset_and_hazards.md R238, R242, R243). The walker is a passive observer (10_state.md
R21): it is a function of the state, no step of the machine, and it changes nothing (log entry 18). -/

namespace Sys2Proof.Machine

/-! ## Accesses -/

/-- The kinds of CPU access that the rules tell apart (R79, R80, R243). -/
inductive AccessKind where
  | fetch
  | load
  | store
  deriving DecidableEq, Repr

/-- A CPU access: its kind, the virtual address of its first byte and its size in bytes. -/
structure Access where
  kind : AccessKind
  va : Word64
  size : Nat
  deriving DecidableEq, Repr

/-- Whether an access is a data access at an address that is no multiple of its size (R243). A fetch is never one (DESIGN
CHOICE, log entry 26). -/
def Access.unaligned (a : Access) : Bool := decide (a.kind ≠ .fetch) && decide (a.va.toNat % a.size ≠ 0)

/-- How many 64 KiB pages an access touches. -/
def Access.pages (a : Access) : Nat := (a.va.toNat % pageSize + (a.size - 1)) / pageSize + 1

/-- The number of the k-th page an access touches. -/
def Access.page (a : Access) (k : Nat) : Nat := a.va.toNat / pageSize + k

/-- The first byte an access touches in its k-th page. -/
def Access.piece (a : Access) : Nat → Word64
  | 0 => a.va
  | k + 1 => BitVec.ofNat 64 (a.page (k + 1) * pageSize)

/-! ## Memory types -/

/-- The memory types of the MAIR bytes that 10_state.md R41 gives a meaning. Any other byte is `other`, with whether the
access is forced to Non-cacheable (R47, log entry 26). -/
inductive MemType where
  | normalWriteBack
  | normalNonCacheable
  | deviceNGnRE
  | deviceNGnRnE
  | other (attr : Nat) (forced : Bool)
  deriving DecidableEq, Repr

/-- The memory type of a MAIR byte (R41). -/
def memTypeOf : Nat → MemType
  | 0xFF => .normalWriteBack
  | 0x04 => .deviceNGnRE
  | 0x44 => .normalNonCacheable
  | 0x00 => .deviceNGnRnE
  | n => .other n false

/-- What C = 0 or I = 0 makes of a memory type (R47). That Device memory stays what it is, being Non-cacheable already,
is DEDUCED (log entry 26). -/
def MemType.forceNonCacheable : MemType → MemType
  | .normalWriteBack => .normalNonCacheable
  | .normalNonCacheable => .normalNonCacheable
  | .deviceNGnRE => .deviceNGnRE
  | .deviceNGnRnE => .deviceNGnRnE
  | .other attr _ => .other attr true

/-- Whether a memory type is Device memory (R41). The spec does not say it of a MAIR byte other than R41's four: none
(DESIGN CHOICE, log entry 26). -/
def MemType.isDevice : MemType → Option Bool
  | .normalWriteBack => some false
  | .normalNonCacheable => some false
  | .deviceNGnRE => some true
  | .deviceNGnRnE => some true
  | .other _ _ => none

/-- The cacheability override of R47: C = 0 for data accesses, I = 0 for instruction fetches. -/
def AccessControls.forcesNonCacheable (c : AccessControls) : AccessKind → Bool
  | .fetch => !c.i
  | .load => !c.c
  | .store => !c.c

/-! ## Byte order -/

/-- The order of a data access's bytes in memory (R61). -/
inductive ByteOrder where
  /-- The byte at the lowest address is the least significant one. -/
  | little
  /-- The byte at the lowest address is the most significant one. -/
  | big
  deriving DecidableEq, Repr

/-- The byte order that EE selects for explicit data accesses at its exception level, with the MMU on or off (R61); a
fetch is none. That EE = 1 is big-endian is DEDUCED from R47's name of the bit (log entry 27). -/
def AccessControls.dataOrder (c : AccessControls) : AccessKind → Option ByteOrder
  | .fetch => none
  | .load => some (if c.ee then .big else .little)
  | .store => some (if c.ee then .big else .little)

/-! ## Results -/

/-- What a translated access gets in one page (R78, R79). -/
structure Translation where
  /-- The output address of the access's first byte in the page. -/
  pa : Nat
  /-- The memory type its attribute index selects in MAIR, under the override of R47. -/
  memType : MemType
  /-- SH, d3[9:8]. -/
  sh : Nat
  /-- XN, d3[54]. -/
  xn : Bool
  /-- Whether the access goes to the Non-secure physical address space: NS, in the EL3 regime. The spec does not say
  which space an access of the EL2 regime goes to: none (log entry 26). -/
  nonSecure : Option Bool
  deriving DecidableEq, Repr

/-- The faults of an access. -/
inductive MmuFault where
  /-- va beyond the 4 GiB that T0SZ selects (R77, R80, R242). -/
  | translationRange
  /-- A descriptor that is not valid, at level 2 or 3 (R78). -/
  | translation (level : Nat)
  /-- AF = 0 (R79). -/
  | accessFlag
  /-- An output address above the size PS selects (R80). -/
  | addressSize
  /-- An instruction fetch from an execute-never page (R80), or from a writable page with WXN = 1 (R79). -/
  | permission
  /-- An unaligned data access to Device memory, or with SCTLR.A = 1 (R243). -/
  | alignment
  deriving DecidableEq, Repr

/-- Why an access has no single result, or none that the spec describes. -/
inductive NoValue where
  /-- CUR_EL is not VARIANT.EL: the running level uses registers of its own (93_implementation_defined.md U6). -/
  | otherRegime
  /-- The context in effect and the registers give different results, and no ISB has followed the last write: either may
  be used (R72). -/
  | unsynchronised
  /-- TLB_CLEAN or CACHE_CLEAN does not hold (U4, R236). -/
  | staleHiddenState
  /-- walker_sync = 0: the walk may read any mix of old and new descriptors (R71). A race. -/
  | race
  /-- SCTLR.EE = 1: the walk is not little-endian (R61). -/
  | bigEndian
  /-- TCR selects another granule or size than R77's. -/
  | otherScheme
  /-- The walk reads bytes nothing has written (R53). -/
  | unwritten
  /-- A 512 MiB block descriptor, which the block never writes (R78). -/
  | blockDescriptor
  /-- AP is not 0b01, which the block never writes (R79, 40_encoder.md R125). -/
  | otherPermission
  /-- An unaligned data access with a MAIR byte whose memory type the spec does not give (R41; log entry 26). -/
  | otherMemoryType
  deriving DecidableEq, Repr

/-- Why an access gets no translation. -/
inductive MmuStop where
  | fault (f : MmuFault)
  | noValue (r : NoValue)
  deriving DecidableEq, Repr

/-- The outcome of an access. An access that goes to memory has the byte order of its data, if it is no fetch (R61). -/
inductive MmuResult where
  /-- The MMU is off: the access is not translated. The spec gives it no memory type, and the model none (DESIGN CHOICE,
  log entry 26). -/
  | untranslated (order : Option ByteOrder)
  /-- One translation for each page the access touches, at rising addresses. -/
  | ok (order : Option ByteOrder) (ts : List Translation)
  | stop (r : MmuStop)
  deriving DecidableEq, Repr

/-! ## The walk -/

/-- The output address of a page descriptor for a virtual address: (d3[47:16] << 16) | va[15:0] (R78). -/
def outputAddress (d3 va : Word64) : Nat := bits d3 47 16 * 2 ^ 16 + bits va 15 0

/-- The translation that a valid page descriptor gives an access of a kind in the regime of level e (R78, R79). No address
space in the EL2 regime: DESIGN CHOICE (log entry 26). -/
def pageTranslation (c : Ctx) (e : El) (kind : AccessKind) (d3 va : Word64) : Translation where
  pa := outputAddress d3 va
  memType :=
    let t := memTypeOf (mairAttr c.mair (bits d3 4 2))
    if c.ctl.forcesNonCacheable kind then t.forceNonCacheable else t
  sh := bits d3 9 8
  xn := d3.getLsbD 54
  nonSecure :=
    match e with
    | .el2 => none
    | .el3 => some (d3.getLsbD 5)

/-- The alignment check (R243): an unaligned data access to Device memory faults, and with A = 1 to any memory. -/
def alignmentResult (c : Ctx) (a : Access) (t : Translation) : Except MmuStop Translation :=
  if ¬a.unaligned then .ok t
  else if c.ctl.a then .error (.fault .alignment)
  else
    match t.memType.isDevice with
    | some true => .error (.fault .alignment)
    | some false => .ok t
    | none => .error (.noValue .otherMemoryType)

/-- The checks on a page descriptor (R78 step 4, R79, R80, R243). A page with AP 0b01 is writable, so with WXN = 1 it is
not executable (R47, R79; DEDUCED, log entry 11, as is the order of the checks). -/
def pageResult (c : Ctx) (e : El) (a : Access) (va d3 : Word64) : Except MmuStop Translation :=
  let t := pageTranslation c e a.kind d3 va
  if bits d3 1 0 ≠ 0b11 then .error (.fault (.translation 3))
  else if d3.getLsbD 10 = false then .error (.fault .accessFlag)
  else
    match paBits (tcrPs c.tcr) with
    | none => .error (.noValue .otherScheme)
    | some n =>
      if 2 ^ n ≤ t.pa then .error (.fault .addressSize)
      else if bits d3 7 6 ≠ 0b01 then .error (.noValue .otherPermission)
      else if a.kind = .fetch ∧ (t.xn ∨ c.ctl.wxn) then .error (.fault .permission)
      else alignmentResult c a t

/-- The two-level walk of R77 and R78: the root index is va[31:29], the leaf index va[28:16]. -/
def walkTables (s : State) (c : Ctx) (e : El) (a : Access) (va : Word64) : Except MmuStop Translation :=
  match s.readWord (bits c.ttbr0 47 1 * 2 + 8 * bits va 31 29) with
  | none => .error (.noValue .unwritten)
  | some d2 =>
    if d2.getLsbD 0 = false then .error (.fault (.translation 2))
    else if bits d2 1 0 = 0b01 then .error (.noValue .blockDescriptor)
    else
      match s.readWord (bits d2 47 16 * 2 ^ 16 + 8 * bits va 28 16) with
      | none => .error (.noValue .unwritten)
      | some d3 => pageResult c e a va d3

/-- The translation of an access's piece at va under a context with the MMU on: the range check comes before all that a
walk depends on (R77, 90_conflicts.md C2; log entry 11), then clean TLBs and caches (R236), the walker's view of memory
(R71) and its byte order (R61), and then the walk. -/
def translatePiece (s : State) (c : Ctx) (e : El) (a : Access) (va : Word64) : Except MmuStop Translation :=
  if ¬(tcrTg0 c.tcr = 0b01 ∧ tcrT0sz c.tcr = 32) then .error (.noValue .otherScheme)
  else if bits va 63 32 ≠ 0 then .error (.fault .translationRange)
  else if ¬(s.tlbClean ∧ s.cacheClean) then .error (.noValue .staleHiddenState)
  else if ¬s.walkerSync then .error (.noValue .race)
  else if c.ctl.ee then .error (.noValue .bigEndian)
  else walkTables s c e a va

/-- The translations of the pieces k, k + 1, ..., k + n - 1; the first piece that gets none decides (DESIGN CHOICE, log
entry 25). -/
def translatePieces (s : State) (c : Ctx) (e : El) (a : Access) (k : Nat) : Nat → Except MmuStop (List Translation)
  | 0 => .ok []
  | n + 1 =>
    match translatePiece s c e a (a.piece k) with
    | .error r => .error r
    | .ok t =>
      match translatePieces s c e a (k + 1) n with
      | .error r => .error r
      | .ok ts => .ok (t :: ts)

/-- A CPU access under one translation context of level e. That the override of C = 0 or I = 0 (R47) does not show on an
access with the MMU off is a DESIGN CHOICE (log entry 26). -/
def accessUnder (s : State) (c : Ctx) (e : El) (a : Access) : MmuResult :=
  if ¬c.mmuOn then .untranslated (c.ctl.dataOrder a.kind)
  else
    match translatePieces s c e a 0 a.pages with
    | .error r => .stop r
    | .ok ts => .ok (c.ctl.dataOrder a.kind) ts

/-- What the MMU does with a CPU access in a state (R70 to R72, R77 to R81, R238): the context of the last ISB and the
one the next ISB would copy may both be used, so the access has a result where they agree on it. That no third context
is used, such as one with a value that a later write replaced, is the reading of log entry 24 (DEDUCED). -/
def mmuAccess (s : State) (a : Access) : MmuResult :=
  match elOf s.cfg.variant.el with
  | none => .stop (.noValue .otherRegime)
  | some e =>
    if s.curEl.val ≠ s.cfg.variant.el then .stop (.noValue .otherRegime)
    else if accessUnder s s.ctx e a = accessUnder s (s.ctxOf e) e a then accessUnder s s.ctx e a
    else .stop (.noValue .unsynchronised)

end Sys2Proof.Machine
end

