-- ==== Sys2Proof/Safety.lean ====
section
/-! DEFINITION. The terms claims are made in: the launch premises of 70_reset_and_hazards.md R236, the state of the
tables after a BUILD (41_initializer.md R150), and the invariants every step keeps. -/

namespace Sys2Proof

open Machine

/-! ## Launch premises (R236) -/

/-- P_EL: CUR_EL = VARIANT.EL. -/
def PEl (s : State) : Prop := s.curEl.val = s.cfg.variant.el

/-- P_MMU_OFF: SCTLR(e).M = 0. -/
def PMmuOff (s : State) (e : El) : Prop := (s.sysReg (.sctlr e)).getLsbD 0 = false

/-- TLB_CLEAN and CACHE_CLEAN. -/
def PClean (s : State) : Prop := s.tlbClean = true ∧ s.cacheClean = true

/-- The register an MSR row writes (30_encoding.md R96). -/
def msrTarget : Instr → Option SysReg
  | .build => none
  | .enable => none
  | .encTable _ => none
  | .encPage _ => none
  | .msrMairEl3 _ => some (.mair .el3)
  | .msrTcrEl3 _ => some (.tcr .el3)
  | .msrTtbr0El3 _ => some (.ttbr0 .el3)
  | .msrSctlrEl3 _ => some (.sctlr .el3)
  | .mrsSctlrEl3 _ => none
  | .msrMairEl2 _ => some (.mair .el2)
  | .msrTcrEl2 _ => some (.tcr .el2)
  | .msrTtbr0El2 _ => some (.ttbr0 .el2)
  | .msrSctlrEl2 _ => some (.sctlr .el2)
  | .mrsSctlrEl2 _ => none
  | .mrsIdAa64mmfr0El1 _ => none
  | .dsbSy => none
  | .dsbIsh => none
  | .isb => none

/-- The registers P_SOLE names, for level e. -/
def IsTarget (e : El) (r : SysReg) : Prop := r = .mair e ∨ r = .tcr e ∨ r = .ttbr0 e ∨ r = .sctlr e

/-- The action about to be taken is no write of a target register by an agent other than the block: a CPU word that is
such a write is SEQ's current µop (42_sequencer.md R178). -/
def TargetUntouched (s : State) : Prop :=
  ∀ (w : Word32) (i : Instr) (e : El) (r : SysReg),
    s.inputs.head? = some (.cpu w) → decodeA64 w = .ok i → elOf s.cfg.variant.el = some e → msrTarget i = some r →
      IsTarget e r → s.seqRuns i = true

/-- P_SOLE at one step: from BUILD acceptance to ENABLE completion no agent but the block writes a target register. The
table region is written by INIT alone in the model, and no other core runs. -/
def PSole (s : State) : Prop := (s.mode ≠ .none ∨ s.built = true) → s.enabled = false → TargetUntouched s

/-- P_CODE_RAM: the addresses the CPU uses across enablement lie in the RAM window and below 4 GiB. -/
def PCodeRam (c : Config) (used : Nat → Prop) : Prop :=
  ∀ a, used a → a < 2 ^ 32 ∧ classOf c (a / pageSize) = .ram

/-! ## Tables -/

/-- The configuration passes every check of 60_exceptions.md R202 (41_initializer.md R141). -/
def ConfigLegal (c : Config) : Prop := configError c = none

/-- The first n entries of 41_initializer.md R142 are in memory. -/
def EntriesHeld (s : State) (n : Nat) : Prop :=
  ∀ i, i < n → s.readWord (entryAddr s.cfg i) = some (entry s.cfg i)

/-- The table region after a completed BUILD (R150): root slot r at TABLE_BASE + 8 r, leaf index g at
TABLE_BASE + 0x10000 + 8 g. -/
def TablesHeld (s : State) : Prop :=
  (∀ r, r < rootEntries → s.readWord (s.cfg.tableBase.toNat + 8 * r) = some (encRoot s.cfg r)) ∧
  (∀ g, g < mappedPages → s.readWord (s.cfg.tableBase.toNat + 0x10000 + 8 * g) = some (encLeaf s.cfg g))

/-! ## Invariants -/

/-- The block's control registers agree with each other (10_state.md R22 to R28, R33, R34; 60_exceptions.md R205). -/
structure ControlInv (s : State) : Prop where
  busy_iff : s.busy = true ↔ s.mode ≠ .none
  err_stops : s.err = true → s.busy = false
  err_none : s.err = false → s.errcode = .none ∧ s.errinfo = 0
  err_some : s.err = true → s.errcode ≠ .none
  ipc_le : s.ipc.toNat ≤ totalEntries
  upc_le : s.upc.toNat ≤ 10
  building : s.mode = .build →
    s.built = false ∧ s.enabled = false ∧ s.ipc.toNat < totalEntries ∧ ConfigLegal s.cfg
  enabling : s.mode = .enable → s.built = true ∧ s.enabled = false ∧ s.upc.toNat < 10
  built_all : s.built = true → s.ipc.toNat = totalEntries ∧ ConfigLegal s.cfg
  enabled_all : s.enabled = true → s.built = true ∧ s.upc = 10

/-- Memory is in canonical form, and what BUILD has written so far is there (R145, R147, R150). -/
structure TableInv (s : State) : Prop where
  memWf : memWf s.mem = true
  building : s.mode = .build → EntriesHeld s s.ipc.toNat
  built : s.built = true → EntriesHeld s totalEntries

/-- What SEQ has done before µop n, for the register set of level e (42_sequencer.md R163 to R173). -/
structure SeqDone (s : State) (e : El) (n : Nat) : Prop where
  mair : 1 ≤ n → s.sysReg (.mair e) = mairVal
  paRange : 2 ≤ n → Machine.paRange s.idAa64mmfr0El1 ≤ paRangeMax ∧ s.ps = s.idAa64mmfr0El1.extractLsb' 0 3
  tcr : 3 ≤ n → s.sysReg (.tcr e) = tcrVal s.ps
  ttbr0 : 4 ≤ n → s.sysReg (.ttbr0 e) = ttbrVal s.cfg.tableBase
  synced : 5 ≤ n → s.walkerSync = true
  ctxRegs : 6 ≤ n → s.ctx.mair = mairVal ∧ s.ctx.tcr = tcrVal s.ps ∧ s.ctx.ttbr0 = ttbrVal s.cfg.tableBase
  tmpRead : n = 7 → s.tmp = s.sysReg (.sctlr e)
  sctlr : 8 ≤ n → s.sysReg (.sctlr e) = sctlrVal s.tmp
  mmuOn : 10 ≤ n → s.ctx.mmuOn = true
  ctxAll : 10 ≤ n → s.ctx = s.ctxOf e

/-- While ENABLE runs, and after it, the target registers, the context and walker_sync are as its µops left them
(R173). -/
structure SeqInv (s : State) : Prop where
  running : s.mode = .enable → ∀ e, elOf s.cfg.variant.el = some e → SeqDone s e s.upc.toNat
  enabled : s.enabled = true → ∀ e, elOf s.cfg.variant.el = some e → SeqDone s e 10

end Sys2Proof
end

