-- ==== Sys2Proof/Certificates/Slice0/Obligations.lean ====
section
/-! DEFINITION. The statements for the provers, from the numbered rules of spec/. Helpers they share come first. -/

namespace Sys2Proof.Claims

open Sys2Proof.Machine

/-- The state after an error entry (60_exceptions.md R205): these five fields and no other. -/
def failed (s : State) (c : ErrCode) (w : Word64) : State :=
  { s with err := true, errcode := c, errinfo := w, busy := false, mode := .none }

/-- The word and the block's own registers allow a command to be looked at: no error yet, nothing running. -/
def Idle (s : State) : Prop := s.err = false ∧ s.busy = false

/-- A running ENABLE stands before µop n in the register set of level e (42_sequencer.md R161, R175). -/
def AtMicroOp (s : State) (e : El) (n : Nat) : Prop :=
  s.busy = true ∧ s.mode = .enable ∧ s.err = false ∧ s.upc.toNat = n ∧ elOf s.cfg.variant.el = some e

/-- The number of a level. -/
def levelOf : El → Nat
  | .el2 => 2
  | .el3 => 3

/-- reserved_bits(op, w) of 60_exceptions.md R202. -/
def reservedBitsOf (op : Nat) (w : Word32) : Nat :=
  if op = 3 then bits w 27 13 else if op = 4 then bits w 27 17 else bits w 27 0

/-- The pseudocode of 60_exceptions.md R202, line by line on the bits of the word, with the four commands' own effects
(41_initializer.md R140, 42_sequencer.md R160, 40_encoder.md R120, R121) at its end. -/
def acceptance (w : Word32) (s : State) : State :=
  let op := bits w 31 28
  let g := bits w 16 0
  if s.err = true then s
  else if s.busy = true then failed s .busy (w.setWidth 64)
  else if ¬(op = 1 ∨ op = 2 ∨ op = 3 ∨ op = 4) ∨ reservedBitsOf op w ≠ 0 then failed s .badcmd (w.setWidth 64)
  else if op = 1 ∧ s.enabled = true then failed s .reentry (w.setWidth 64)
  else if op = 2 ∧ s.enabled = true then failed s .reentry (w.setWidth 64)
  else if op = 2 ∧ s.built = false then failed s .order (w.setWidth 64)
  else if bits s.cfg.tableBase 15 0 ≠ 0 then failed s .align s.cfg.tableBase
  else if s.cfg.tableBase.toNat + 0xA0000 > 2 ^ 48 then failed s .config 1
  else if ¬(s.cfg.variant.devLo ≤ s.cfg.variant.devHi ∧ s.cfg.variant.devHi ≤ 73728) then failed s .config 2
  else if ¬(s.cfg.variant.el = 2 ∨ s.cfg.variant.el = 3) then failed s .config 3
  else if op = 4 ∧ g ≥ 73728 then failed s .range (BitVec.ofNat 64 g)
  else if op = 1 then { s with built := false, ipc := 0, busy := true, mode := .build }
  else if op = 2 then { s with upc := 0, busy := true, mode := .enable }
  else if op = 3 then { s with encOut := encRoot s.cfg (bits w 12 0) }
  else { s with encOut := encLeaf s.cfg g }

/-- Everything of a state that no instruction and no command acceptance writes: memory byte by byte, the memory port,
the read-only register, the platform, the configuration and the schedule. -/
def SameOutside (s t : State) : Prop :=
  (∀ a, t.readByte a = s.readByte a) ∧ t.memPort = s.memPort ∧ t.idAa64mmfr0El1 = s.idAa64mmfr0El1 ∧
    t.curEl = s.curEl ∧ t.tlbClean = s.tlbClean ∧ t.cacheClean = s.cacheClean ∧ t.cfg = s.cfg ∧ t.inputs = s.inputs

/-- The block's registers that only commands, INIT and SEQ's own µops write are unchanged. -/
def SameBlock (s t : State) : Prop :=
  t.busy = s.busy ∧ t.mode = s.mode ∧ t.built = s.built ∧ t.enabled = s.enabled ∧ t.err = s.err ∧
    t.errcode = s.errcode ∧ t.errinfo = s.errinfo ∧ t.ipc = s.ipc ∧ t.upc = s.upc ∧ t.tmp = s.tmp ∧ t.ps = s.ps ∧
    t.encOut = s.encOut

/-- exec answers a next state, and it is u but for what X0 holds, which DatapathSuppliesX0 is about. -/
def AnswersUpToX (i : Instr) (s u : State) : Prop :=
  ∃ t, exec i s = .next t ∧ t = { u with x := t.x } ∧ ∀ k, k ≠ 0 → t.readX k = s.readX k

/-- One command word is about to be written to CMD, and after it the host and the CPU do nothing. -/
def OneCommand (s : State) (w : Word32) : Prop := s.inputs = [.write w]

/-- The codes of 60_exceptions.md R201. -/
def codeNumber : ErrCode → Nat
  | .none => 0x0
  | .badcmd => 0x1
  | .busy => 0x2
  | .reentry => 0x3
  | .order => 0x4
  | .align => 0x5
  | .config => 0x6
  | .range => 0x7
  | .parange => 0x8
  | .sysreg => 0x9
  | .mem => 0xA

/-- The values of mode (10_state.md R22). -/
def modeNumber : Mode → Nat
  | .none => 0
  | .build => 1
  | .enable => 2

/-- A translation context that holds the registers of level e: MAIR, TCR, TTBR0 and, of SCTLR, M and the bits that govern
an access (20_memory.md R70, R72, 10_state.md R47). -/
def Holds (c : Ctx) (s : State) (e : El) : Prop :=
  c.mair = s.sysReg (.mair e) ∧ c.tcr = s.sysReg (.tcr e) ∧ c.ttbr0 = s.sysReg (.ttbr0 e) ∧
    c.mmuOn = (s.sysReg (.sctlr e)).getLsbD 0 ∧ c.ctl.a = (s.sysReg (.sctlr e)).getLsbD 1 ∧
    c.ctl.c = (s.sysReg (.sctlr e)).getLsbD 2 ∧ c.ctl.i = (s.sysReg (.sctlr e)).getLsbD 12 ∧
    c.ctl.wxn = (s.sysReg (.sctlr e)).getLsbD 19 ∧ c.ctl.ee = (s.sysReg (.sctlr e)).getLsbD 25

/-- A completed ENABLE under the launch premises of 70_reset_and_hazards.md R236, in a state with the invariants. -/
def EnabledAt (s : State) (e : El) : Prop :=
  (ControlInv s ∧ TableInv s ∧ SeqInv s) ∧ s.enabled = true ∧ PEl s ∧ PClean s ∧ elOf s.cfg.variant.el = some e

/-- An access that touches a device page below 4 GiB. -/
def TouchesDevice (c : Config) (a : Access) : Prop :=
  ∃ k, k < a.pages ∧ a.page k < 2 ^ 16 ∧ classOf c (a.page k) = .dev

/-- An access that neither fetches from a device page nor is an unaligned one that touches one (20_memory.md R80,
70_reset_and_hazards.md R243). -/
def Permitted (c : Config) (a : Access) : Prop := TouchesDevice c a → a.kind ≠ .fetch ∧ a.unaligned = false

/-- The translation that page g's class gives in level e's regime to the address pa in it (20_memory.md R79, 40_encoder.md
R116, R117). -/
def windowTranslation (c : Config) (e : El) (g pa : Nat) : Translation where
  pa := pa
  memType := if classOf c g = .dev then .deviceNGnRE else .normalWriteBack
  sh := if classOf c g = .dev then 0b10 else 0b11
  xn := decide (classOf c g = .dev)
  nonSecure := if e = .el3 then some (decide (classOf c g = .dev) && c.variant.devNs) else none

end Sys2Proof.Claims

open Sys2Proof Sys2Proof.Machine Sys2Proof.Claims

/-! ## Encoding -/

/-- R92, R93, R95 to R97: no operand bit is lost. -/
def Obligations.DecodeOfEncodeIsTheInstruction : Prop :=
  ∀ i : Instr, i.WellFormed → decode (encode i) = .ok i

/-- R99 and the words of R92 to R97: no bit of a word is ignored. -/
def Obligations.EncodeOfDecodeIsTheWord : Prop :=
  ∀ (w : Word32) (i : Instr), decode w = .ok i → encode i = w

/-- R102: the match and mask pairs, the operands of R93, and BADCMD for a word that matches no row. -/
def Obligations.CommandRowsByMatchAndMask : Prop :=
  ∀ w : Word32,
    (w = 0x10000000 → decodeCommand w = .ok .build) ∧
    (w = 0x20000000 → decodeCommand w = .ok .enable) ∧
    (w &&& 0xFFFFE000 = 0x30000000 → decodeCommand w = .ok (.encTable (bits w 12 0))) ∧
    (w &&& 0xFFFE0000 = 0x40000000 → decodeCommand w = .ok (.encPage (bits w 16 0))) ∧
    (w ≠ 0x10000000 → w ≠ 0x20000000 → w &&& 0xFFFFE000 ≠ 0x30000000 → w &&& 0xFFFE0000 ≠ 0x40000000 →
      (∃ r, decodeCommand w = .error r) ∧
      ∀ (s : State) (rest : List Input), s.inputs = .write w :: rest → Idle s →
        step s = .next (failed { s with inputs := rest } .badcmd (w.setWidth 64)))

/-- The two formats of R90 share no word: every A64-SYS word has a reserved OP. -/
def Obligations.NoWordIsInBothFormats : Prop :=
  ∀ (w : Word32) (i : Instr), decodeA64 w = .ok i → decodeCommand w = .error (.reservedOp 0xD)

/-- Words written out from R96, R97 and R100. -/
def Obligations.WordsWrittenOutFromTheSpecDecode : Prop :=
  decodeCommand 0x40003F20 = .ok (.encPage 0x3F20) ∧ decodeCommand 0x30000008 = .ok (.encTable 8) ∧
  decodeA64 0xD51EA200 = .ok (.msrMairEl3 0) ∧ decodeA64 0xD51C2045 = .ok (.msrTcrEl2 5) ∧
  decodeA64 0xD53E101F = .ok (.mrsSctlrEl3 31) ∧ decodeA64 0xD5380700 = .ok (.mrsIdAa64mmfr0El1 0) ∧
  decodeA64 0xD5033B9F = .ok .dsbIsh ∧ decodeA64 0xD5033FDF = .ok .isb

/-- R98: the word of every µop of both register sets, and the instruction it is; past u9 there is none. -/
def Obligations.MicroProgramIsTheWordMap : Prop :=
  ∀ c : Config,
    (c.variant.el = 3 →
      (∀ n, (uopWord c n = ([0xD51EA200, 0xD5380700, 0xD51E2040, 0xD51E2000,
        (if c.dsb1Scope = .sy then 0xD5033F9F else 0xD5033B9F), 0xD5033FDF, 0xD53E1000, 0xD51E1000, 0xD5033F9F,
        0xD5033FDF] : List Word32)[n]?)) ∧
      (∀ n, uopInstr c n = ([.msrMairEl3 0, .mrsIdAa64mmfr0El1 0, .msrTcrEl3 0, .msrTtbr0El3 0,
        (if c.dsb1Scope = .sy then .dsbSy else .dsbIsh), .isb, .mrsSctlrEl3 0, .msrSctlrEl3 0, .dsbSy,
        .isb] : List Instr)[n]?)) ∧
    (c.variant.el = 2 →
      (∀ n, (uopWord c n = ([0xD51CA200, 0xD5380700, 0xD51C2040, 0xD51C2000,
        (if c.dsb1Scope = .sy then 0xD5033F9F else 0xD5033B9F), 0xD5033FDF, 0xD53C1000, 0xD51C1000, 0xD5033F9F,
        0xD5033FDF] : List Word32)[n]?)) ∧
      (∀ n, uopInstr c n = ([.msrMairEl2 0, .mrsIdAa64mmfr0El1 0, .msrTcrEl2 0, .msrTtbr0El2 0,
        (if c.dsb1Scope = .sy then .dsbSy else .dsbIsh), .isb, .mrsSctlrEl2 0, .msrSctlrEl2 0, .dsbSy,
        .isb] : List Instr)[n]?))

/-! ## The step -/

/-- R31, R162, R202: a word at CMD, a word at the CPU and SEQ's own word each run as exec of what they decode to. -/
def Obligations.StepRunsTheDecodedInstruction : Prop :=
  (∀ (s : State) (w : Word32) (i : Instr) (rest : List Input),
    s.inputs = .write w :: rest → decodeCommand w = .ok i → step s = exec i { s with inputs := rest }) ∧
  (∀ (s : State) (w : Word32) (i : Instr) (rest : List Input),
    s.inputs = .cpu w :: rest → decodeA64 w = .ok i → step s = exec i { s with inputs := rest }) ∧
  (∀ (s : State) (w : Word32) (i : Instr),
    s.inputs = [] → s.busy = true → s.mode = .enable → uopWord s.cfg s.upc.toNat = some w → decodeA64 w = .ok i →
      step s = exec i s) ∧
  (∀ (s : State) (w : Word32) (i : Instr) (rest : List Input),
    s.inputs = .wait :: rest → s.busy = true → s.mode = .enable → uopWord s.cfg s.upc.toNat = some w →
      decodeA64 w = .ok i → step s = exec i { s with inputs := rest })

/-- R31, R32, R216: an idle block keeps every register, and a read of an output or a write of STATUS changes nothing. -/
def Obligations.IdleStepsAndReadsChangeNothing : Prop :=
  (∀ s : State, s.inputs = [] → s.busy = false → step s = .next s) ∧
  (∀ (s : State) (rest : List Input), s.inputs = .wait :: rest → s.busy = false →
    step s = .next { s with inputs := rest }) ∧
  (∀ (s : State) (o : Output) (rest : List Input), s.inputs = .read o :: rest →
    step s = .next { s with inputs := rest }) ∧
  (∀ (s : State) (w : Word32) (rest : List Input), s.inputs = .writeStatus w :: rest →
    step s = .next { s with inputs := rest })

/-! ## Reset and outputs -/

/-- R52 and R231: the values the spec gives for the block, the MMU and walker_sync. -/
def Obligations.ResetLeavesTheSpecsValues : Prop :=
  State.reset.busy = false ∧ State.reset.mode = .none ∧ State.reset.built = false ∧ State.reset.enabled = false ∧
  State.reset.err = false ∧ State.reset.errcode = .none ∧ State.reset.errinfo = 0 ∧ State.reset.ipc = 0 ∧
  State.reset.upc = 0 ∧ State.reset.tmp = 0 ∧ State.reset.ps = 0 ∧ State.reset.encOut = 0 ∧
  State.reset.status = 0 ∧ State.reset.output .errinfo = 0 ∧ State.reset.output .encOut = 0 ∧
  State.reset.ctx.mmuOn = false ∧ State.reset.walkerSync = true ∧
  ∀ e : El, elOf State.reset.cfg.variant.el = some e → (State.reset.sysReg (.sctlr e)).getLsbD 0 = false

/-- R230: a block reset puts every internal register at its value of R52; that it leaves all else alone, the CPU's
hidden state of R51 too, is log entry 10's reading. -/
def Obligations.BlockResetClearsTheBlockAndNothingElse : Prop :=
  ∀ (s : State) (rest : List Input), s.inputs = .reset :: rest →
    ∃ t, step s = .next t ∧ t.status = 0 ∧
      t = { s with
        inputs := rest, busy := false, mode := .none, built := false, enabled := false, err := false, errcode := .none,
        errinfo := 0, ipc := 0, upc := 0, tmp := 0, ps := 0, encOut := 0 }

/-- R32 and R33, field by field, with the numbers of 60_exceptions.md R201 and 10_state.md R22. -/
def Obligations.StatusFields : Prop :=
  (∀ s : State,
    (bits s.status 0 0 = 1 ↔ s.busy = true) ∧ (bits s.status 1 1 = 1 ↔ s.built = true) ∧
    (bits s.status 2 2 = 1 ↔ s.enabled = true) ∧ (bits s.status 3 3 = 1 ↔ s.err = true) ∧
    bits s.status 7 4 = codeNumber s.errcode ∧ bits s.status 11 8 = s.upc.toNat ∧
    bits s.status 13 12 = modeNumber s.mode ∧ bits s.status 31 14 = 0 ∧ bits s.status 13 12 ≠ 3 ∧
    bits s.status 7 4 ≤ 0xA) ∧
  (∀ (s : State) (w : Word32) (rest : List Input), s.inputs = .writeStatus w :: rest →
    ∃ t, step s = .next t ∧ t.status = s.status ∧ t = { s with inputs := rest })

/-! ## Command acceptance and errors -/

/-- R202 and R203: a host write of any word runs exactly the acceptance step. -/
def Obligations.HostWriteRunsTheAcceptanceStep : Prop :=
  ∀ (s : State) (w : Word32) (rest : List Input), s.inputs = .write w :: rest →
    step s = .next (acceptance w { s with inputs := rest })

/-- R206: after an error nothing but a reset changes the error, and command writes change nothing at all. -/
def Obligations.ErrorsAreStickyAndStopTheBlock : Prop :=
  (∀ (s : State) (w : Word32) (rest : List Input), s.err = true → s.inputs = .write w :: rest →
    step s = .next { s with inputs := rest }) ∧
  (∀ s : State, ControlInv s → s.err = true → s.inputs = [] → step s = .next s) ∧
  (∀ s t : State, s.err = true → s.inputs.head? ≠ some .reset → step s = .next t →
    t.err = true ∧ t.errcode = s.errcode ∧ t.errinfo = s.errinfo)

/-- R140: an accepted BUILD. -/
def Obligations.BuildIsAccepted : Prop :=
  ∀ s : State, Idle s → s.enabled = false → ConfigLegal s.cfg →
    exec .build s = .next { s with built := false, ipc := 0, busy := true, mode := .build }

/-- R160: an accepted ENABLE, and ORDER without a BUILD. -/
def Obligations.EnableIsAcceptedOnceBuilt : Prop :=
  ∀ s : State, Idle s → s.enabled = false →
    (s.built = true → ConfigLegal s.cfg → exec .enable s = .next { s with upc := 0, busy := true, mode := .enable }) ∧
    (s.built = false → exec .enable s = .next (failed s .order 0x20000000))

/-- R120 with R115 and R119: the result of ENC.TABLE for every slot. -/
def Obligations.EncTableResult : Prop :=
  ∀ (s : State) (slot : Nat), Idle s → ConfigLegal s.cfg → slot < 8192 →
    exec (.encTable slot) s =
      .next { s with
        encOut := if slot < 9 then BitVec.ofNat 64 (s.cfg.tableBase.toNat + 0x10000 * (slot + 1) + 3) else 0 }

/-- R121 with R113, R116 to R118: the result of ENC.PAGE for every index, RANGE beyond the mapped pages. -/
def Obligations.EncPageResult : Prop :=
  ∀ (s : State) (g : Nat), Idle s → ConfigLegal s.cfg → g < 131072 →
    (g < 73728 → s.cfg.variant.devLo ≤ g → g < s.cfg.variant.devHi →
      exec (.encPage g) s =
        .next { s with
          encOut := BitVec.ofNat 64 (g * 2 ^ 16 + 0x0060000000000647 + (if s.cfg.variant.devNs then 0x20 else 0)) }) ∧
    (g < 73728 → ¬(s.cfg.variant.devLo ≤ g ∧ g < s.cfg.variant.devHi) →
      exec (.encPage g) s = .next { s with encOut := BitVec.ofNat 64 (g * 2 ^ 16 + 0x743) }) ∧
    (73728 ≤ g → exec (.encPage g) s = .next (failed s .range (BitVec.ofNat 64 g)))

/-- R177: after enablement BUILD and ENABLE raise REENTRY. -/
def Obligations.EnableIsOneShot : Prop :=
  (∀ s : State, Idle s → s.enabled = true →
    exec .build s = .next (failed s .reentry 0x10000000) ∧ exec .enable s = .next (failed s .reentry 0x20000000)) ∧
  (∀ s t : State, s.enabled = true → s.inputs.head? ≠ some .reset → step s = .next t → t.enabled = true)

/-! ## ENC -/

/-- R111: every field of the table descriptors ENC writes. -/
def Obligations.TableDescriptorsFollowTheFormat : Prop :=
  ∀ (c : Config) (k : Nat), ConfigLegal c → k < 9 → tableFields (encTableDesc c k) = tableColumn c k

/-- R112: every field of the page descriptors ENC writes. -/
def Obligations.PageDescriptorsFollowTheFormat : Prop :=
  ∀ (c : Config) (g : Nat), g < 73728 →
    pageFields (encPageRam g) = ramColumn g ∧ pageFields (encPageDev c g) = devColumn c g

/-- R122: every leaf entry is an identity mapping. -/
def Obligations.LeafEntriesAreIdentityMappings : Prop :=
  ∀ (c : Config) (g : Nat), g < 73728 → bits (encLeaf c g) 47 16 = g ∧ bits (encLeaf c g) 47 16 * 2 ^ 16 = g * 65536

/-- R123: both execute-never bits are set in device pages and in no other. -/
def Obligations.ExecuteNeverExactlyOnDevicePages : Prop :=
  ∀ (c : Config) (g : Nat), g < 73728 →
    ((encLeaf c g).getLsbD 54 = true ↔ classOf c g = .dev) ∧ ((encLeaf c g).getLsbD 53 = true ↔ classOf c g = .dev)

/-- R124: the leaf tables are as far apart as their numbers say, disjoint, inside the region and clear of the root
table; the root table's other slots are zero. -/
def Obligations.LeafTablesAreDistinct : Prop :=
  ∀ (c : Config) (a b : Nat), ConfigLegal c → a < b → b < 9 →
    (encRoot c a = encTableDesc c a ∧ encRoot c b = encTableDesc c b ∧ ∀ r, 9 ≤ r → r < 8192 → encRoot c r = 0) ∧
    bits (encTableDesc c b) 47 16 * 2 ^ 16 = bits (encTableDesc c a) 47 16 * 2 ^ 16 + 0x10000 * (b - a) ∧
    c.tableBase.toNat + 0x10000 ≤ bits (encTableDesc c a) 47 16 * 2 ^ 16 ∧
    bits (encTableDesc c b) 47 16 * 2 ^ 16 + 0x10000 ≤ c.tableBase.toNat + 0xA0000

/-- R125: the fields ENC never sets. -/
def Obligations.FieldsEncNeverSets : Prop :=
  ∀ (c : Config), ConfigLegal c →
    (∀ r, r < 8192 → bits (encRoot c r) 63 48 = 0 ∧ (encRoot c r).getLsbD 11 = false) ∧
    (∀ g, g < 73728 →
      (encLeaf c g).getLsbD 11 = false ∧ bits (encLeaf c g) 52 51 = 0 ∧ bits (encLeaf c g) 63 55 = 0 ∧
      bits (encLeaf c g) 4 2 ≤ 1 ∧ 2 ≤ bits (encLeaf c g) 9 8 ∧ bits (encLeaf c g) 7 6 = 1 ∧
      ((encLeaf c g).getLsbD 5 = true ↔ classOf c g = .dev ∧ c.variant.devNs = true))

/-! ## INIT -/

/-- R145: one INIT step, its address, its value, what it leaves alone, and the last one. -/
def Obligations.InitStepWritesOneEntry : Prop :=
  ∀ s : State, s.inputs = [] → s.busy = true → s.mode = .build → s.err = false → s.ipc.toNat < 81920 →
    ConfigLegal s.cfg →
    (s.memPort.head? ≠ some .reject →
      ∃ t, step s = .next t ∧
        t.readWord (s.cfg.tableBase.toNat + 8 * s.ipc.toNat) = some (entry s.cfg s.ipc.toNat) ∧
        (∀ a, a < s.cfg.tableBase.toNat + 8 * s.ipc.toNat ∨ s.cfg.tableBase.toNat + 8 * s.ipc.toNat + 8 ≤ a →
          t.readByte a = s.readByte a) ∧
        t.ipc.toNat = s.ipc.toNat + 1 ∧
        (s.ipc.toNat + 1 ≠ 81920 →
          t = { s with mem := t.mem, memPort := s.memPort.tail, walkerSync := false, ipc := s.ipc + 1 }) ∧
        (s.ipc.toNat + 1 = 81920 →
          t = { s with
            mem := t.mem, memPort := s.memPort.tail, walkerSync := false, ipc := s.ipc + 1, busy := false, mode := .none,
            built := true })) ∧
    (s.memPort.head? = some .reject →
      step s = .next (failed { s with memPort := s.memPort.tail } .mem
        (s.cfg.tableBase + 8 * s.ipc.setWidth 64)))

/-- R60: each byte of the descriptor an INIT step writes. -/
def Obligations.DescriptorsAreStoredLittleEndian : Prop :=
  ∀ s t : State, s.inputs = [] → s.busy = true → s.mode = .build → ConfigLegal s.cfg →
    s.memPort.head? ≠ some .reject → step s = .next t →
    ∀ k, k < 8 →
      t.readByte (entryAddr s.cfg s.ipc.toNat + k) = some ((entry s.cfg s.ipc.toNat).extractLsb' (8 * k) 8)

/-- R140, R146, R149, R150, R245: a BUILD whose writes are all accepted completes in 81920 steps after its acceptance,
leaves the tables of R150 and changes no byte outside the region. -/
def Obligations.BuildCompletesWithTheTables : Prop :=
  ∀ s : State, Idle s → s.enabled = false → ConfigLegal s.cfg → OneCommand s 0x10000000 →
    (∀ a ∈ s.memPort, a = .accept) →
    ∃ t, core.run (1 + 81920) s = .next t ∧ TablesHeld t ∧
      (∀ a, a < s.cfg.tableBase.toNat ∨ s.cfg.tableBase.toNat + 0xA0000 ≤ a → t.readByte a = s.readByte a) ∧
      t = { s with
        inputs := [], mem := t.mem, memPort := s.memPort.drop 81920, walkerSync := false, built := true, ipc := 81920,
        busy := false, mode := .none }

/-- R148: in two states of the machine that are built with one configuration, whatever else differs, both regions hold
the tables of R150 and agree on every byte. -/
def Obligations.TablesAreAFunctionOfTheConfiguration : Prop :=
  ∀ s t : State, ControlInv s → TableInv s → s.built = true → ControlInv t → TableInv t → t.built = true →
    t.cfg = s.cfg →
    TablesHeld s ∧ TablesHeld t ∧
    ∀ a, s.cfg.tableBase.toNat ≤ a → a < s.cfg.tableBase.toNat + 0xA0000 →
      t.readByte a = s.readByte a ∧ (s.readByte a).isSome = true

/-! ## SEQ: the micro-operations -/

/-- R163: µop u0 in both register sets, and SYSREG below the level. -/
def Obligations.MicroOpWriteMair : Prop :=
  ∀ s : State,
    (AtMicroOp s .el3 0 →
      (3 ≤ s.curEl.val →
        AnswersUpToX (.msrMairEl3 0) s { s with mairEl3 := 0x00000000004404FF, upc := 1 }) ∧
      (s.curEl.val < 3 → AnswersUpToX (.msrMairEl3 0) s (failed s .sysreg 0))) ∧
    (AtMicroOp s .el2 0 →
      (2 ≤ s.curEl.val →
        AnswersUpToX (.msrMairEl2 0) s { s with mairEl2 := 0x00000000004404FF, upc := 1 }) ∧
      (s.curEl.val < 2 → AnswersUpToX (.msrMairEl2 0) s (failed s .sysreg 0)))

/-- R164: µop u1, its three outcomes. X0 is log entry 7's choice, and that tmp and X0 keep the value when PARANGE is
raised is log entry 8's reading. -/
def Obligations.MicroOpReadFeatureRegister : Prop :=
  ∀ (s : State) (e : El), AtMicroOp s e 1 →
    (s.curEl.val < 1 → exec (.mrsIdAa64mmfr0El1 0) s = .next (failed s .sysreg 1)) ∧
    (1 ≤ s.curEl.val → bits s.idAa64mmfr0El1 3 0 > 6 →
      exec (.mrsIdAa64mmfr0El1 0) s =
        .next (failed { s.writeX 0 s.idAa64mmfr0El1 with tmp := s.idAa64mmfr0El1 } .parange s.idAa64mmfr0El1)) ∧
    (1 ≤ s.curEl.val → bits s.idAa64mmfr0El1 3 0 ≤ 6 →
      exec (.mrsIdAa64mmfr0El1 0) s =
        .next { s.writeX 0 s.idAa64mmfr0El1 with
          tmp := s.idAa64mmfr0El1, ps := BitVec.ofNat 3 (bits s.idAa64mmfr0El1 2 0), upc := 2 })

/-- R165: µop u2 in both register sets. -/
def Obligations.MicroOpWriteTcr : Prop :=
  ∀ (s : State) (v : Word64), v = 0x0000000080807520 ||| (s.ps.setWidth 64 <<< 16) →
    (AtMicroOp s .el3 2 →
      (3 ≤ s.curEl.val → AnswersUpToX (.msrTcrEl3 0) s { s with tcrEl3 := v, upc := 3 }) ∧
      (s.curEl.val < 3 → AnswersUpToX (.msrTcrEl3 0) s (failed s .sysreg 2))) ∧
    (AtMicroOp s .el2 2 →
      (2 ≤ s.curEl.val → AnswersUpToX (.msrTcrEl2 0) s { s with tcrEl2 := v, upc := 3 }) ∧
      (s.curEl.val < 2 → AnswersUpToX (.msrTcrEl2 0) s (failed s .sysreg 2)))

/-- R42: every field of the TCR value that µop u2 leaves. -/
def Obligations.ProgrammedTcrFields : Prop :=
  ∀ (s : State) (e : El), AtMicroOp s e 2 → levelOf e ≤ s.curEl.val → s.inputs = [] →
    ∃ t, step s = .next t ∧
      bits (t.sysReg (.tcr e)) 5 0 = 32 ∧ bits (t.sysReg (.tcr e)) 7 6 = 0 ∧ bits (t.sysReg (.tcr e)) 9 8 = 0b01 ∧
      bits (t.sysReg (.tcr e)) 11 10 = 0b01 ∧ bits (t.sysReg (.tcr e)) 13 12 = 0b11 ∧
      bits (t.sysReg (.tcr e)) 15 14 = 0b01 ∧ bits (t.sysReg (.tcr e)) 18 16 = s.ps.toNat ∧
      bits (t.sysReg (.tcr e)) 22 19 = 0 ∧ bits (t.sysReg (.tcr e)) 23 23 = 1 ∧ bits (t.sysReg (.tcr e)) 30 24 = 0 ∧
      bits (t.sysReg (.tcr e)) 31 31 = 1 ∧ bits (t.sysReg (.tcr e)) 63 32 = 0

/-- R166: µop u3 in both register sets; with the base aligned, the OR with 1 equals adding 1. -/
def Obligations.MicroOpWriteTtbr : Prop :=
  ∀ (s : State) (v : Word64), v = s.cfg.tableBase ||| 1 →
    (bits s.cfg.tableBase 15 0 = 0 → v = s.cfg.tableBase + 1) ∧
    (AtMicroOp s .el3 3 →
      (3 ≤ s.curEl.val → AnswersUpToX (.msrTtbr0El3 0) s { s with ttbr0El3 := v, upc := 4 }) ∧
      (s.curEl.val < 3 → AnswersUpToX (.msrTtbr0El3 0) s (failed s .sysreg 3))) ∧
    (AtMicroOp s .el2 3 →
      (2 ≤ s.curEl.val → AnswersUpToX (.msrTtbr0El2 0) s { s with ttbr0El2 := v, upc := 4 }) ∧
      (s.curEl.val < 2 → AnswersUpToX (.msrTtbr0El2 0) s (failed s .sysreg 3)))

/-- R167 and R171: the barriers of µops u4 and u8. -/
def Obligations.MicroOpDataBarriers : Prop :=
  ∀ (s : State) (e : El),
    (AtMicroOp s e 4 → s.cfg.dsb1Scope = .sy → exec .dsbSy s = .next { s with walkerSync := true, upc := 5 }) ∧
    (AtMicroOp s e 4 → s.cfg.dsb1Scope = .ish → exec .dsbIsh s = .next { s with walkerSync := true, upc := 5 }) ∧
    (AtMicroOp s e 8 → exec .dsbSy s = .next { s with walkerSync := true, upc := 9 })

/-- R168 and R172: the barriers of µops u5 and u9; u9 completes the ENABLE. That ctx holds more of SCTLR than M is log
entry 24's reading. -/
def Obligations.MicroOpInstructionBarriers : Prop :=
  ∀ (s : State) (e : El) (c : Ctx), Holds c s e →
    (AtMicroOp s e 5 → exec .isb s = .next { s with ctx := c, upc := 6 }) ∧
    (AtMicroOp s e 9 →
      exec .isb s = .next { s with ctx := c, busy := false, mode := .none, enabled := true, upc := 10 })

/-- R169: µop u6 in both register sets. -/
def Obligations.MicroOpReadSctlr : Prop :=
  ∀ s : State,
    (AtMicroOp s .el3 6 →
      (3 ≤ s.curEl.val →
        AnswersUpToX (.mrsSctlrEl3 0) s { s with tmp := s.sctlrEl3, upc := 7 }) ∧
      (s.curEl.val < 3 → AnswersUpToX (.mrsSctlrEl3 0) s (failed s .sysreg 6))) ∧
    (AtMicroOp s .el2 6 →
      (2 ≤ s.curEl.val →
        AnswersUpToX (.mrsSctlrEl2 0) s { s with tmp := s.sctlrEl2, upc := 7 }) ∧
      (s.curEl.val < 2 → AnswersUpToX (.mrsSctlrEl2 0) s (failed s .sysreg 6)))

/-- R170: µop u7 in both register sets. -/
def Obligations.MicroOpWriteSctlr : Prop :=
  ∀ (s : State) (v : Word64), v = (s.tmp ||| 0x0000000000001005) &&& ~~~(0x0000000002080002 : Word64) →
    (AtMicroOp s .el3 7 →
      (3 ≤ s.curEl.val → AnswersUpToX (.msrSctlrEl3 0) s { s with sctlrEl3 := v, upc := 8 }) ∧
      (s.curEl.val < 3 → AnswersUpToX (.msrSctlrEl3 0) s (failed s .sysreg 7))) ∧
    (AtMicroOp s .el2 7 →
      (2 ≤ s.curEl.val → AnswersUpToX (.msrSctlrEl2 0) s { s with sctlrEl2 := v, upc := 8 }) ∧
      (s.curEl.val < 2 → AnswersUpToX (.msrSctlrEl2 0) s (failed s .sysreg 7)))

/-- R47: µop u7 sets M, C and I, clears A, WXN and EE, and keeps every other bit as µop u6 read it; and in a translation,
C = 0 forces data accesses and I = 0 instruction fetches to Non-cacheable, and 1 disables the override. -/
def Obligations.SctlrChangesSixBitsOnly : Prop :=
  (∀ (s : State) (e : El), AtMicroOp s e 7 → levelOf e ≤ s.curEl.val → s.inputs = [] →
    ∃ t, step s = .next t ∧
      ∀ i, i < 64 →
        (t.sysReg (.sctlr e)).getLsbD i =
          (if i = 0 ∨ i = 2 ∨ i = 12 then true else if i = 1 ∨ i = 19 ∨ i = 25 then false else s.tmp.getLsbD i)) ∧
  ∀ (c : Ctx) (e : El) (k : AccessKind) (d3 va : Word64) (t : MemType), t = memTypeOf (mairAttr c.mair (bits d3 4 2)) →
    (((k = .fetch → c.ctl.i = true) ∧ (k ≠ .fetch → c.ctl.c = true)) → (pageTranslation c e k d3 va).memType = t) ∧
    (((k = .fetch ∧ c.ctl.i = false) ∨ (k ≠ .fetch ∧ c.ctl.c = false)) →
      (pageTranslation c e k d3 va).memType ≠ .normalWriteBack ∧
      (t = .normalWriteBack ∨ t = .normalNonCacheable → (pageTranslation c e k d3 va).memType = .normalNonCacheable))

/-- R98: the datapath puts in X0 what a register-writing µop writes, and MRS µops load X0; no µop touches another X
register. That the model keeps X0 in this way whatever the realisation is log entry 7's choice. -/
def Obligations.DatapathSuppliesX0 : Prop :=
  ∀ (s : State) (e : El) (n : Nat), AtMicroOp s e n → n < 10 → levelOf e ≤ s.curEl.val → s.inputs = [] →
    ∃ t, step s = .next t ∧
      (n = 0 → t.readX 0 = t.sysReg (.mair e)) ∧ (n = 1 → t.readX 0 = s.idAa64mmfr0El1) ∧
      (n = 2 → t.readX 0 = t.sysReg (.tcr e)) ∧ (n = 3 → t.readX 0 = t.sysReg (.ttbr0 e)) ∧
      (n = 6 → t.readX 0 = s.sysReg (.sctlr e)) ∧ (n = 7 → t.readX 0 = t.sysReg (.sctlr e)) ∧
      ((n = 4 ∨ n = 5 ∨ n = 8 ∨ n = 9) → t.x = s.x) ∧ ∀ k, k ≠ 0 → t.readX k = s.readX k

/-- R160, R173, R245: an ENABLE at a level that may write the registers, with a PARange that is not reserved, completes
in ten steps after its acceptance with the end state of R173. R173 gives of ctx only mmu_on; that u9 leaves the rest of
ctx as the registers is R70 and R72, and that ctx holds SCTLR's A, C, I, WXN and EE too is log entry 24's reading. -/
def Obligations.EnableCompletesWithTheEndState : Prop :=
  ∀ (s : State) (e : El), Idle s → s.built = true → s.enabled = false → ConfigLegal s.cfg →
    OneCommand s 0x20000000 → elOf s.cfg.variant.el = some e → levelOf e ≤ s.curEl.val →
    bits s.idAa64mmfr0El1 3 0 ≤ 6 →
    ∃ t, core.run (1 + 10) s = .next t ∧
      t.sysReg (.mair e) = 0x00000000004404FF ∧
      t.sysReg (.tcr e) = 0x0000000080807520 ||| (BitVec.ofNat 64 (bits s.idAa64mmfr0El1 2 0) <<< 16) ∧
      t.sysReg (.ttbr0 e) = s.cfg.tableBase ||| 1 ∧
      t.sysReg (.sctlr e) = (s.sysReg (.sctlr e) ||| 0x1005) &&& ~~~(0x02080002 : Word64) ∧
      t.ctx = t.ctxOf e ∧ t.ctx.mmuOn = true ∧ t.walkerSync = true ∧ t.enabled = true ∧ t.built = true ∧
      t.busy = false ∧ t.mode = .none ∧ t.upc = 10 ∧ t.err = false ∧ (∀ a, t.readByte a = s.readByte a)

/-- R211 and R175: a SEQ step writes no register of the other level. -/
def Obligations.SeqLeavesTheOtherLevelAlone : Prop :=
  ∀ (s t : State) (e e' : El), s.inputs = [] → s.busy = true → s.mode = .enable → elOf s.cfg.variant.el = some e →
    e' ≠ e → step s = .next t →
    t.sysReg (.mair e') = s.sysReg (.mair e') ∧ t.sysReg (.tcr e') = s.sysReg (.tcr e') ∧
    t.sysReg (.ttbr0 e') = s.sysReg (.ttbr0 e') ∧ t.sysReg (.sctlr e') = s.sysReg (.sctlr e')

/-! ## A64-SYS words outside SEQ -/

/-- R95, R73: outside SEQ an MSR at a level that may write the register copies Xt to it (0 for XZR) and does nothing
else. -/
def Obligations.MsrOutsideSeqWritesItsRegister : Prop :=
  ∀ (s : State) (rt : Nat), rt < 32 →
    (3 ≤ s.curEl.val →
      (s.seqRuns (.msrMairEl3 rt) = false → exec (.msrMairEl3 rt) s = .next { s with mairEl3 := s.readX rt }) ∧
      (s.seqRuns (.msrTcrEl3 rt) = false → exec (.msrTcrEl3 rt) s = .next { s with tcrEl3 := s.readX rt }) ∧
      (s.seqRuns (.msrTtbr0El3 rt) = false → exec (.msrTtbr0El3 rt) s = .next { s with ttbr0El3 := s.readX rt }) ∧
      (s.seqRuns (.msrSctlrEl3 rt) = false → exec (.msrSctlrEl3 rt) s = .next { s with sctlrEl3 := s.readX rt })) ∧
    (2 ≤ s.curEl.val →
      (s.seqRuns (.msrMairEl2 rt) = false → exec (.msrMairEl2 rt) s = .next { s with mairEl2 := s.readX rt }) ∧
      (s.seqRuns (.msrTcrEl2 rt) = false → exec (.msrTcrEl2 rt) s = .next { s with tcrEl2 := s.readX rt }) ∧
      (s.seqRuns (.msrTtbr0El2 rt) = false → exec (.msrTtbr0El2 rt) s = .next { s with ttbr0El2 := s.readX rt }) ∧
      (s.seqRuns (.msrSctlrEl2 rt) = false → exec (.msrSctlrEl2 rt) s = .next { s with sctlrEl2 := s.readX rt })) ∧
    (rt = 31 → s.readX rt = 0)

/-- R95, R73: outside SEQ an MRS at a level that may read the register copies it to Xt and does nothing else; for XZR
it does nothing. -/
def Obligations.MrsOutsideSeqReadsItsRegister : Prop :=
  ∀ (s : State) (rt : Nat) (i : Instr) (v : Word64), rt < 32 → s.seqRuns i = false →
    ((i = .mrsSctlrEl3 rt ∧ v = s.sctlrEl3 ∧ 3 ≤ s.curEl.val) ∨ (i = .mrsSctlrEl2 rt ∧ v = s.sctlrEl2 ∧ 2 ≤ s.curEl.val) ∨
      (i = .mrsIdAa64mmfr0El1 rt ∧ v = s.idAa64mmfr0El1 ∧ 1 ≤ s.curEl.val)) →
    ∃ t, exec i s = .next t ∧ t = { s with x := t.x } ∧ (rt < 31 → t.readX rt = v) ∧ (rt = 31 → t = s) ∧
      ∀ n, n ≠ rt → t.readX n = s.readX n

/-- R73, R209: outside SEQ a move below its register's level is an Undefined Instruction exception, which ends the run
(its entry is out of scope). -/
def Obligations.MovesBelowTheirLevelAreUndefined : Prop :=
  ∀ (s : State) (rt : Nat) (i : Instr), s.seqRuns i = false →
    ((s.curEl.val < 3 ∧ (i = .msrMairEl3 rt ∨ i = .msrTcrEl3 rt ∨ i = .msrTtbr0El3 rt ∨ i = .msrSctlrEl3 rt ∨
        i = .mrsSctlrEl3 rt)) ∨
      (s.curEl.val < 2 ∧ (i = .msrMairEl2 rt ∨ i = .msrTcrEl2 rt ∨ i = .msrTtbr0El2 rt ∨ i = .msrSctlrEl2 rt ∨
        i = .mrsSctlrEl2 rt)) ∨
      (s.curEl.val < 1 ∧ i = .mrsIdAa64mmfr0El1 rt)) →
    exec i s = .fault .undefinedInstruction

/-- R69 to R72: the barriers outside SEQ. That ctx holds more of SCTLR than M is log entry 24's reading. -/
def Obligations.BarriersOutsideSeq : Prop :=
  ∀ s : State,
    (s.seqRuns .dsbSy = false → exec .dsbSy s = .next { s with walkerSync := true }) ∧
    (s.seqRuns .dsbIsh = false → exec .dsbIsh s = .next { s with walkerSync := true }) ∧
    (∀ (e : El) (c : Ctx), elOf s.cfg.variant.el = some e → Holds c s e → s.seqRuns .isb = false →
      exec .isb s = .next { s with ctx := c })

/-! ## Frames -/

/-- No instruction of either format writes a byte of memory, the read-only register, the platform, the configuration or
the schedule (R38, R49, R64, R176). -/
def Obligations.NoInstructionWritesMemory : Prop :=
  ∀ (i : Instr) (s t : State), exec i s = .next t → SameOutside s t

/-- The frame of the four commands: no system register, X register or CPU state, no tmp or ps; enc_out only for the ENC
commands, ipc and built only for BUILD, upc only for ENABLE, enabled never. -/
def Obligations.CommandFrame : Prop :=
  ∀ (i : Instr) (s t : State) (n : Nat),
    (i = .build ∨ i = .enable ∨ i = .encTable n ∨ i = .encPage n) → exec i s = .next t →
    SameOutside s t ∧ (∀ r, t.sysReg r = s.sysReg r) ∧ t.x = s.x ∧ t.ctx = s.ctx ∧ t.walkerSync = s.walkerSync ∧
    t.tmp = s.tmp ∧ t.ps = s.ps ∧ t.enabled = s.enabled ∧
    ((i = .build ∨ i = .enable) → t.encOut = s.encOut) ∧ (i ≠ .build → t.ipc = s.ipc ∧ t.built = s.built) ∧
    (i ≠ .enable → t.upc = s.upc) ∧
    ((i = .encTable n ∨ i = .encPage n) → s.busy = false → t.busy = false)

/-- The frame of the eight MSR rows: of the system registers only their own, no CPU state, and outside SEQ no block
register and no X register; as a µop of SEQ, X0 and the registers R162 and R205 name. -/
def Obligations.MsrFrame : Prop :=
  ∀ (i : Instr) (r : SysReg) (rt : Nat) (s t : State),
    ((i = .msrMairEl3 rt ∧ r = .mair .el3) ∨ (i = .msrTcrEl3 rt ∧ r = .tcr .el3) ∨
      (i = .msrTtbr0El3 rt ∧ r = .ttbr0 .el3) ∨ (i = .msrSctlrEl3 rt ∧ r = .sctlr .el3) ∨
      (i = .msrMairEl2 rt ∧ r = .mair .el2) ∨ (i = .msrTcrEl2 rt ∧ r = .tcr .el2) ∨
      (i = .msrTtbr0El2 rt ∧ r = .ttbr0 .el2) ∨ (i = .msrSctlrEl2 rt ∧ r = .sctlr .el2)) →
    exec i s = .next t →
    SameOutside s t ∧ (∀ r', r' ≠ r → t.sysReg r' = s.sysReg r') ∧ t.ctx = s.ctx ∧ t.walkerSync = s.walkerSync ∧
    t.built = s.built ∧ t.ipc = s.ipc ∧ t.tmp = s.tmp ∧ t.ps = s.ps ∧ t.encOut = s.encOut ∧ t.enabled = s.enabled ∧
    (∀ n, n ≠ 0 → t.readX n = s.readX n) ∧ (s.seqRuns i = false → SameBlock s t ∧ t.x = s.x)

/-- The frame of the three MRS rows: no system register, no CPU state, of the X registers only Xt, and outside SEQ no
block register; as a µop of SEQ, tmp, ps and the registers R162 and R205 name. -/
def Obligations.MrsFrame : Prop :=
  ∀ (i : Instr) (rt : Nat) (s t : State),
    (i = .mrsSctlrEl3 rt ∨ i = .mrsSctlrEl2 rt ∨ i = .mrsIdAa64mmfr0El1 rt) → exec i s = .next t →
    SameOutside s t ∧ (∀ r, t.sysReg r = s.sysReg r) ∧ t.ctx = s.ctx ∧ t.walkerSync = s.walkerSync ∧
    t.built = s.built ∧ t.ipc = s.ipc ∧ t.encOut = s.encOut ∧ t.enabled = s.enabled ∧
    (i ≠ .mrsIdAa64mmfr0El1 rt → t.ps = s.ps) ∧ (∀ n, n ≠ rt → t.readX n = s.readX n) ∧
    (s.seqRuns i = false → SameBlock s t)

/-- The frame of the three barriers: no system or X register, ctx only for ISB, walker_sync only for the DSBs, and of
the block's registers, as a µop of SEQ only, those of R162. -/
def Obligations.BarrierFrame : Prop :=
  ∀ (i : Instr) (s t : State), (i = .dsbSy ∨ i = .dsbIsh ∨ i = .isb) → exec i s = .next t →
    SameOutside s t ∧ (∀ r, t.sysReg r = s.sysReg r) ∧ t.x = s.x ∧ (i ≠ .isb → t.ctx = s.ctx) ∧
    (i = .isb → t.walkerSync = s.walkerSync) ∧ t.built = s.built ∧ t.ipc = s.ipc ∧ t.tmp = s.tmp ∧ t.ps = s.ps ∧
    t.encOut = s.encOut ∧ t.err = s.err ∧ t.errcode = s.errcode ∧ t.errinfo = s.errinfo ∧
    (s.seqRuns i = false → SameBlock s t)

/-! ## Invariants and whole-machine rules -/

/-- The invariants hold in the state after reset. -/
def Obligations.InvariantsHoldAtReset : Prop :=
  ControlInv State.reset ∧ TableInv State.reset ∧ SeqInv State.reset

/-- Every step keeps the agreement of the control registers (R22 to R28, R34, R205). -/
def Obligations.StepKeepsControl : Prop :=
  ∀ s t : State, ControlInv s → step s = .next t → ControlInv t

/-- Every step keeps memory canonical and what BUILD has written (R145, R147, R150, R239). -/
def Obligations.StepKeepsTables : Prop :=
  ∀ s t : State, ControlInv s → TableInv s → step s = .next t → TableInv t

/-- Under P_SOLE every step keeps what SEQ is programming, and after ENABLE every step but a CPU's write of a target
register keeps what it has programmed (R163 to R173, R236). -/
def Obligations.StepKeepsSequence : Prop :=
  ∀ s t : State, ControlInv s → SeqInv s → PSole s → (s.enabled = true → TargetUntouched s) → step s = .next t → SeqInv t

/-- From a state that meets the control invariant the block's own step never stops (R31, R145, R162). -/
def Obligations.BlockStepsAlwaysComplete : Prop :=
  ∀ s : State, ControlInv s → s.inputs = [] → ∃ t, step s = .next t

/-- R239: once built, and until a new BUILD is accepted or the block is reset, no step writes a byte of memory. -/
def Obligations.NoWriteAfterBuild : Prop :=
  ∀ s t : State, ControlInv s → s.built = true → step s = .next t → ∀ a, t.readByte a = s.readByte a

/-! ## The consumer -/

/-- R61, R78, R79, R122, R173: after an ENABLE, under the launch premises, every permitted access whose bytes all lie
below 4 GiB gets, in every page it touches, its own address with the attributes of the page's window, and its data are
little-endian. One translation a page, and no address space in the EL2 regime, are the choices of log entries 25 and
26. -/
def Obligations.EnabledMmuMapsEveryAddressToItself : Prop :=
  ∀ (s : State) (e : El) (a : Access), EnabledAt s e → a.va.toNat + (a.size - 1) < 2 ^ 32 → Permitted s.cfg a →
    ∃ ts, mmuAccess s a = .ok (if a.kind = .fetch then none else some .little) ts ∧ ts.length = a.pages ∧
      ∀ k t, ts[k]? = some t →
        t = windowTranslation s.cfg e (a.page k) (if k = 0 then a.va.toNat else a.page k * 2 ^ 16)

/-- R242: after an ENABLE, under the launch premises, every access with a byte at or above 4 GiB faults, in the ninth
512 MiB block too: a Translation fault, unless it starts below 4 GiB and a device page there forbids it as well. -/
def Obligations.EnabledMmuFaultsFrom4GiB : Prop :=
  ∀ (s : State) (e : El) (a : Access), EnabledAt s e → 2 ^ 32 ≤ a.va.toNat + (a.size - 1) →
    (2 ^ 32 ≤ a.va.toNat → mmuAccess s a = .stop (.fault .translationRange)) ∧
    (Permitted s.cfg a → mmuAccess s a = .stop (.fault .translationRange)) ∧
    ∃ f, mmuAccess s a = .stop (.fault f)

/-- R80, R243: after an ENABLE, under the launch premises, a fetch that touches a device page is a Permission fault and an
unaligned data access that touches one an alignment fault. Where a later byte lies above 4 GiB, that this fault is the one
is log entry 25's choice. -/
def Obligations.EnabledMmuFaultsOnDevicePages : Prop :=
  ∀ (s : State) (e : El) (a : Access), EnabledAt s e → TouchesDevice s.cfg a →
    (a.kind = .fetch → mmuAccess s a = .stop (.fault .permission)) ∧
    (a.unaligned = true → mmuAccess s a = .stop (.fault .alignment))

/-! ## Outputs -/

/-- R34 and R35, and STATUS as the host reads it: each output is its register, and ERRINFO is 0 without an error. -/
def Obligations.OutputsShowTheirRegisters : Prop :=
  ∀ s : State,
    s.output .errinfo = s.errinfo ∧ s.output .encOut = s.encOut ∧ (s.output .status).toNat = s.status.toNat ∧
    (ControlInv s → s.err = false → s.output .errinfo = 0)
end

