-- ==== Sys2Proof/Laws/State.lean ====
section
/-! SUPPORT. What each shared operation leaves unchanged, one lemma per field and operation, and what it writes. -/

namespace Sys2Proof.Machine

/-! ## raise -/

@[simp] theorem raise_built (s : State) (c : ErrCode) (w : Word64) : (s.raise c w).built = s.built :=
  by unfold State.raise; split <;> rfl
@[simp] theorem raise_enabled (s : State) (c : ErrCode) (w : Word64) : (s.raise c w).enabled = s.enabled :=
  by unfold State.raise; split <;> rfl
@[simp] theorem raise_ipc (s : State) (c : ErrCode) (w : Word64) : (s.raise c w).ipc = s.ipc :=
  by unfold State.raise; split <;> rfl
@[simp] theorem raise_upc (s : State) (c : ErrCode) (w : Word64) : (s.raise c w).upc = s.upc :=
  by unfold State.raise; split <;> rfl
@[simp] theorem raise_tmp (s : State) (c : ErrCode) (w : Word64) : (s.raise c w).tmp = s.tmp :=
  by unfold State.raise; split <;> rfl
@[simp] theorem raise_ps (s : State) (c : ErrCode) (w : Word64) : (s.raise c w).ps = s.ps :=
  by unfold State.raise; split <;> rfl
@[simp] theorem raise_encOut (s : State) (c : ErrCode) (w : Word64) : (s.raise c w).encOut = s.encOut :=
  by unfold State.raise; split <;> rfl
@[simp] theorem raise_mem (s : State) (c : ErrCode) (w : Word64) : (s.raise c w).mem = s.mem :=
  by unfold State.raise; split <;> rfl
@[simp] theorem raise_mairEl2 (s : State) (c : ErrCode) (w : Word64) : (s.raise c w).mairEl2 = s.mairEl2 :=
  by unfold State.raise; split <;> rfl
@[simp] theorem raise_tcrEl2 (s : State) (c : ErrCode) (w : Word64) : (s.raise c w).tcrEl2 = s.tcrEl2 :=
  by unfold State.raise; split <;> rfl
@[simp] theorem raise_ttbr0El2 (s : State) (c : ErrCode) (w : Word64) : (s.raise c w).ttbr0El2 = s.ttbr0El2 :=
  by unfold State.raise; split <;> rfl
@[simp] theorem raise_sctlrEl2 (s : State) (c : ErrCode) (w : Word64) : (s.raise c w).sctlrEl2 = s.sctlrEl2 :=
  by unfold State.raise; split <;> rfl
@[simp] theorem raise_mairEl3 (s : State) (c : ErrCode) (w : Word64) : (s.raise c w).mairEl3 = s.mairEl3 :=
  by unfold State.raise; split <;> rfl
@[simp] theorem raise_tcrEl3 (s : State) (c : ErrCode) (w : Word64) : (s.raise c w).tcrEl3 = s.tcrEl3 :=
  by unfold State.raise; split <;> rfl
@[simp] theorem raise_ttbr0El3 (s : State) (c : ErrCode) (w : Word64) : (s.raise c w).ttbr0El3 = s.ttbr0El3 :=
  by unfold State.raise; split <;> rfl
@[simp] theorem raise_sctlrEl3 (s : State) (c : ErrCode) (w : Word64) : (s.raise c w).sctlrEl3 = s.sctlrEl3 :=
  by unfold State.raise; split <;> rfl
@[simp] theorem raise_idAa64mmfr0El1 (s : State) (c : ErrCode) (w : Word64) : (s.raise c w).idAa64mmfr0El1 = s.idAa64mmfr0El1 :=
  by unfold State.raise; split <;> rfl
@[simp] theorem raise_x (s : State) (c : ErrCode) (w : Word64) : (s.raise c w).x = s.x :=
  by unfold State.raise; split <;> rfl
@[simp] theorem raise_ctx (s : State) (c : ErrCode) (w : Word64) : (s.raise c w).ctx = s.ctx :=
  by unfold State.raise; split <;> rfl
@[simp] theorem raise_walkerSync (s : State) (c : ErrCode) (w : Word64) : (s.raise c w).walkerSync = s.walkerSync :=
  by unfold State.raise; split <;> rfl
@[simp] theorem raise_curEl (s : State) (c : ErrCode) (w : Word64) : (s.raise c w).curEl = s.curEl :=
  by unfold State.raise; split <;> rfl
@[simp] theorem raise_tlbClean (s : State) (c : ErrCode) (w : Word64) : (s.raise c w).tlbClean = s.tlbClean :=
  by unfold State.raise; split <;> rfl
@[simp] theorem raise_cacheClean (s : State) (c : ErrCode) (w : Word64) : (s.raise c w).cacheClean = s.cacheClean :=
  by unfold State.raise; split <;> rfl
@[simp] theorem raise_memPort (s : State) (c : ErrCode) (w : Word64) : (s.raise c w).memPort = s.memPort :=
  by unfold State.raise; split <;> rfl
@[simp] theorem raise_cfg (s : State) (c : ErrCode) (w : Word64) : (s.raise c w).cfg = s.cfg :=
  by unfold State.raise; split <;> rfl
@[simp] theorem raise_inputs (s : State) (c : ErrCode) (w : Word64) : (s.raise c w).inputs = s.inputs :=
  by unfold State.raise; split <;> rfl

/-! ## blockReset -/

@[simp] theorem blockReset_mem (s : State) : (s.blockReset).mem = s.mem :=
  rfl
@[simp] theorem blockReset_mairEl2 (s : State) : (s.blockReset).mairEl2 = s.mairEl2 :=
  rfl
@[simp] theorem blockReset_tcrEl2 (s : State) : (s.blockReset).tcrEl2 = s.tcrEl2 :=
  rfl
@[simp] theorem blockReset_ttbr0El2 (s : State) : (s.blockReset).ttbr0El2 = s.ttbr0El2 :=
  rfl
@[simp] theorem blockReset_sctlrEl2 (s : State) : (s.blockReset).sctlrEl2 = s.sctlrEl2 :=
  rfl
@[simp] theorem blockReset_mairEl3 (s : State) : (s.blockReset).mairEl3 = s.mairEl3 :=
  rfl
@[simp] theorem blockReset_tcrEl3 (s : State) : (s.blockReset).tcrEl3 = s.tcrEl3 :=
  rfl
@[simp] theorem blockReset_ttbr0El3 (s : State) : (s.blockReset).ttbr0El3 = s.ttbr0El3 :=
  rfl
@[simp] theorem blockReset_sctlrEl3 (s : State) : (s.blockReset).sctlrEl3 = s.sctlrEl3 :=
  rfl
@[simp] theorem blockReset_idAa64mmfr0El1 (s : State) : (s.blockReset).idAa64mmfr0El1 = s.idAa64mmfr0El1 :=
  rfl
@[simp] theorem blockReset_x (s : State) : (s.blockReset).x = s.x :=
  rfl
@[simp] theorem blockReset_ctx (s : State) : (s.blockReset).ctx = s.ctx :=
  rfl
@[simp] theorem blockReset_walkerSync (s : State) : (s.blockReset).walkerSync = s.walkerSync :=
  rfl
@[simp] theorem blockReset_curEl (s : State) : (s.blockReset).curEl = s.curEl :=
  rfl
@[simp] theorem blockReset_tlbClean (s : State) : (s.blockReset).tlbClean = s.tlbClean :=
  rfl
@[simp] theorem blockReset_cacheClean (s : State) : (s.blockReset).cacheClean = s.cacheClean :=
  rfl
@[simp] theorem blockReset_memPort (s : State) : (s.blockReset).memPort = s.memPort :=
  rfl
@[simp] theorem blockReset_cfg (s : State) : (s.blockReset).cfg = s.cfg :=
  rfl
@[simp] theorem blockReset_inputs (s : State) : (s.blockReset).inputs = s.inputs :=
  rfl

/-! ## writeX -/

@[simp] theorem writeX_busy (s : State) (n : Nat) (v : Word64) : (s.writeX n v).busy = s.busy :=
  by unfold State.writeX; split <;> rfl
@[simp] theorem writeX_mode (s : State) (n : Nat) (v : Word64) : (s.writeX n v).mode = s.mode :=
  by unfold State.writeX; split <;> rfl
@[simp] theorem writeX_built (s : State) (n : Nat) (v : Word64) : (s.writeX n v).built = s.built :=
  by unfold State.writeX; split <;> rfl
@[simp] theorem writeX_enabled (s : State) (n : Nat) (v : Word64) : (s.writeX n v).enabled = s.enabled :=
  by unfold State.writeX; split <;> rfl
@[simp] theorem writeX_err (s : State) (n : Nat) (v : Word64) : (s.writeX n v).err = s.err :=
  by unfold State.writeX; split <;> rfl
@[simp] theorem writeX_errcode (s : State) (n : Nat) (v : Word64) : (s.writeX n v).errcode = s.errcode :=
  by unfold State.writeX; split <;> rfl
@[simp] theorem writeX_errinfo (s : State) (n : Nat) (v : Word64) : (s.writeX n v).errinfo = s.errinfo :=
  by unfold State.writeX; split <;> rfl
@[simp] theorem writeX_ipc (s : State) (n : Nat) (v : Word64) : (s.writeX n v).ipc = s.ipc :=
  by unfold State.writeX; split <;> rfl
@[simp] theorem writeX_upc (s : State) (n : Nat) (v : Word64) : (s.writeX n v).upc = s.upc :=
  by unfold State.writeX; split <;> rfl
@[simp] theorem writeX_tmp (s : State) (n : Nat) (v : Word64) : (s.writeX n v).tmp = s.tmp :=
  by unfold State.writeX; split <;> rfl
@[simp] theorem writeX_ps (s : State) (n : Nat) (v : Word64) : (s.writeX n v).ps = s.ps :=
  by unfold State.writeX; split <;> rfl
@[simp] theorem writeX_encOut (s : State) (n : Nat) (v : Word64) : (s.writeX n v).encOut = s.encOut :=
  by unfold State.writeX; split <;> rfl
@[simp] theorem writeX_mem (s : State) (n : Nat) (v : Word64) : (s.writeX n v).mem = s.mem :=
  by unfold State.writeX; split <;> rfl
@[simp] theorem writeX_mairEl2 (s : State) (n : Nat) (v : Word64) : (s.writeX n v).mairEl2 = s.mairEl2 :=
  by unfold State.writeX; split <;> rfl
@[simp] theorem writeX_tcrEl2 (s : State) (n : Nat) (v : Word64) : (s.writeX n v).tcrEl2 = s.tcrEl2 :=
  by unfold State.writeX; split <;> rfl
@[simp] theorem writeX_ttbr0El2 (s : State) (n : Nat) (v : Word64) : (s.writeX n v).ttbr0El2 = s.ttbr0El2 :=
  by unfold State.writeX; split <;> rfl
@[simp] theorem writeX_sctlrEl2 (s : State) (n : Nat) (v : Word64) : (s.writeX n v).sctlrEl2 = s.sctlrEl2 :=
  by unfold State.writeX; split <;> rfl
@[simp] theorem writeX_mairEl3 (s : State) (n : Nat) (v : Word64) : (s.writeX n v).mairEl3 = s.mairEl3 :=
  by unfold State.writeX; split <;> rfl
@[simp] theorem writeX_tcrEl3 (s : State) (n : Nat) (v : Word64) : (s.writeX n v).tcrEl3 = s.tcrEl3 :=
  by unfold State.writeX; split <;> rfl
@[simp] theorem writeX_ttbr0El3 (s : State) (n : Nat) (v : Word64) : (s.writeX n v).ttbr0El3 = s.ttbr0El3 :=
  by unfold State.writeX; split <;> rfl
@[simp] theorem writeX_sctlrEl3 (s : State) (n : Nat) (v : Word64) : (s.writeX n v).sctlrEl3 = s.sctlrEl3 :=
  by unfold State.writeX; split <;> rfl
@[simp] theorem writeX_idAa64mmfr0El1 (s : State) (n : Nat) (v : Word64) : (s.writeX n v).idAa64mmfr0El1 = s.idAa64mmfr0El1 :=
  by unfold State.writeX; split <;> rfl
@[simp] theorem writeX_ctx (s : State) (n : Nat) (v : Word64) : (s.writeX n v).ctx = s.ctx :=
  by unfold State.writeX; split <;> rfl
@[simp] theorem writeX_walkerSync (s : State) (n : Nat) (v : Word64) : (s.writeX n v).walkerSync = s.walkerSync :=
  by unfold State.writeX; split <;> rfl
@[simp] theorem writeX_curEl (s : State) (n : Nat) (v : Word64) : (s.writeX n v).curEl = s.curEl :=
  by unfold State.writeX; split <;> rfl
@[simp] theorem writeX_tlbClean (s : State) (n : Nat) (v : Word64) : (s.writeX n v).tlbClean = s.tlbClean :=
  by unfold State.writeX; split <;> rfl
@[simp] theorem writeX_cacheClean (s : State) (n : Nat) (v : Word64) : (s.writeX n v).cacheClean = s.cacheClean :=
  by unfold State.writeX; split <;> rfl
@[simp] theorem writeX_memPort (s : State) (n : Nat) (v : Word64) : (s.writeX n v).memPort = s.memPort :=
  by unfold State.writeX; split <;> rfl
@[simp] theorem writeX_cfg (s : State) (n : Nat) (v : Word64) : (s.writeX n v).cfg = s.cfg :=
  by unfold State.writeX; split <;> rfl
@[simp] theorem writeX_inputs (s : State) (n : Nat) (v : Word64) : (s.writeX n v).inputs = s.inputs :=
  by unfold State.writeX; split <;> rfl

/-! ## setSysReg -/

@[simp] theorem setSysReg_busy (s : State) (r : SysReg) (v : Word64) : (s.setSysReg r v).busy = s.busy :=
  by rcases r with (_ | _) | (_ | _) | (_ | _) | (_ | _) | _ <;> rfl
@[simp] theorem setSysReg_mode (s : State) (r : SysReg) (v : Word64) : (s.setSysReg r v).mode = s.mode :=
  by rcases r with (_ | _) | (_ | _) | (_ | _) | (_ | _) | _ <;> rfl
@[simp] theorem setSysReg_built (s : State) (r : SysReg) (v : Word64) : (s.setSysReg r v).built = s.built :=
  by rcases r with (_ | _) | (_ | _) | (_ | _) | (_ | _) | _ <;> rfl
@[simp] theorem setSysReg_enabled (s : State) (r : SysReg) (v : Word64) : (s.setSysReg r v).enabled = s.enabled :=
  by rcases r with (_ | _) | (_ | _) | (_ | _) | (_ | _) | _ <;> rfl
@[simp] theorem setSysReg_err (s : State) (r : SysReg) (v : Word64) : (s.setSysReg r v).err = s.err :=
  by rcases r with (_ | _) | (_ | _) | (_ | _) | (_ | _) | _ <;> rfl
@[simp] theorem setSysReg_errcode (s : State) (r : SysReg) (v : Word64) : (s.setSysReg r v).errcode = s.errcode :=
  by rcases r with (_ | _) | (_ | _) | (_ | _) | (_ | _) | _ <;> rfl
@[simp] theorem setSysReg_errinfo (s : State) (r : SysReg) (v : Word64) : (s.setSysReg r v).errinfo = s.errinfo :=
  by rcases r with (_ | _) | (_ | _) | (_ | _) | (_ | _) | _ <;> rfl
@[simp] theorem setSysReg_ipc (s : State) (r : SysReg) (v : Word64) : (s.setSysReg r v).ipc = s.ipc :=
  by rcases r with (_ | _) | (_ | _) | (_ | _) | (_ | _) | _ <;> rfl
@[simp] theorem setSysReg_upc (s : State) (r : SysReg) (v : Word64) : (s.setSysReg r v).upc = s.upc :=
  by rcases r with (_ | _) | (_ | _) | (_ | _) | (_ | _) | _ <;> rfl
@[simp] theorem setSysReg_tmp (s : State) (r : SysReg) (v : Word64) : (s.setSysReg r v).tmp = s.tmp :=
  by rcases r with (_ | _) | (_ | _) | (_ | _) | (_ | _) | _ <;> rfl
@[simp] theorem setSysReg_ps (s : State) (r : SysReg) (v : Word64) : (s.setSysReg r v).ps = s.ps :=
  by rcases r with (_ | _) | (_ | _) | (_ | _) | (_ | _) | _ <;> rfl
@[simp] theorem setSysReg_encOut (s : State) (r : SysReg) (v : Word64) : (s.setSysReg r v).encOut = s.encOut :=
  by rcases r with (_ | _) | (_ | _) | (_ | _) | (_ | _) | _ <;> rfl
@[simp] theorem setSysReg_mem (s : State) (r : SysReg) (v : Word64) : (s.setSysReg r v).mem = s.mem :=
  by rcases r with (_ | _) | (_ | _) | (_ | _) | (_ | _) | _ <;> rfl
@[simp] theorem setSysReg_idAa64mmfr0El1 (s : State) (r : SysReg) (v : Word64) : (s.setSysReg r v).idAa64mmfr0El1 = s.idAa64mmfr0El1 :=
  by rcases r with (_ | _) | (_ | _) | (_ | _) | (_ | _) | _ <;> rfl
@[simp] theorem setSysReg_x (s : State) (r : SysReg) (v : Word64) : (s.setSysReg r v).x = s.x :=
  by rcases r with (_ | _) | (_ | _) | (_ | _) | (_ | _) | _ <;> rfl
@[simp] theorem setSysReg_ctx (s : State) (r : SysReg) (v : Word64) : (s.setSysReg r v).ctx = s.ctx :=
  by rcases r with (_ | _) | (_ | _) | (_ | _) | (_ | _) | _ <;> rfl
@[simp] theorem setSysReg_walkerSync (s : State) (r : SysReg) (v : Word64) : (s.setSysReg r v).walkerSync = s.walkerSync :=
  by rcases r with (_ | _) | (_ | _) | (_ | _) | (_ | _) | _ <;> rfl
@[simp] theorem setSysReg_curEl (s : State) (r : SysReg) (v : Word64) : (s.setSysReg r v).curEl = s.curEl :=
  by rcases r with (_ | _) | (_ | _) | (_ | _) | (_ | _) | _ <;> rfl
@[simp] theorem setSysReg_tlbClean (s : State) (r : SysReg) (v : Word64) : (s.setSysReg r v).tlbClean = s.tlbClean :=
  by rcases r with (_ | _) | (_ | _) | (_ | _) | (_ | _) | _ <;> rfl
@[simp] theorem setSysReg_cacheClean (s : State) (r : SysReg) (v : Word64) : (s.setSysReg r v).cacheClean = s.cacheClean :=
  by rcases r with (_ | _) | (_ | _) | (_ | _) | (_ | _) | _ <;> rfl
@[simp] theorem setSysReg_memPort (s : State) (r : SysReg) (v : Word64) : (s.setSysReg r v).memPort = s.memPort :=
  by rcases r with (_ | _) | (_ | _) | (_ | _) | (_ | _) | _ <;> rfl
@[simp] theorem setSysReg_cfg (s : State) (r : SysReg) (v : Word64) : (s.setSysReg r v).cfg = s.cfg :=
  by rcases r with (_ | _) | (_ | _) | (_ | _) | (_ | _) | _ <;> rfl
@[simp] theorem setSysReg_inputs (s : State) (r : SysReg) (v : Word64) : (s.setSysReg r v).inputs = s.inputs :=
  by rcases r with (_ | _) | (_ | _) | (_ | _) | (_ | _) | _ <;> rfl

/-! ## dsb -/

@[simp] theorem dsb_busy (s : State) (d : DsbScope) : (s.dsb d).busy = s.busy :=
  rfl
@[simp] theorem dsb_mode (s : State) (d : DsbScope) : (s.dsb d).mode = s.mode :=
  rfl
@[simp] theorem dsb_built (s : State) (d : DsbScope) : (s.dsb d).built = s.built :=
  rfl
@[simp] theorem dsb_enabled (s : State) (d : DsbScope) : (s.dsb d).enabled = s.enabled :=
  rfl
@[simp] theorem dsb_err (s : State) (d : DsbScope) : (s.dsb d).err = s.err :=
  rfl
@[simp] theorem dsb_errcode (s : State) (d : DsbScope) : (s.dsb d).errcode = s.errcode :=
  rfl
@[simp] theorem dsb_errinfo (s : State) (d : DsbScope) : (s.dsb d).errinfo = s.errinfo :=
  rfl
@[simp] theorem dsb_ipc (s : State) (d : DsbScope) : (s.dsb d).ipc = s.ipc :=
  rfl
@[simp] theorem dsb_upc (s : State) (d : DsbScope) : (s.dsb d).upc = s.upc :=
  rfl
@[simp] theorem dsb_tmp (s : State) (d : DsbScope) : (s.dsb d).tmp = s.tmp :=
  rfl
@[simp] theorem dsb_ps (s : State) (d : DsbScope) : (s.dsb d).ps = s.ps :=
  rfl
@[simp] theorem dsb_encOut (s : State) (d : DsbScope) : (s.dsb d).encOut = s.encOut :=
  rfl
@[simp] theorem dsb_mem (s : State) (d : DsbScope) : (s.dsb d).mem = s.mem :=
  rfl
@[simp] theorem dsb_mairEl2 (s : State) (d : DsbScope) : (s.dsb d).mairEl2 = s.mairEl2 :=
  rfl
@[simp] theorem dsb_tcrEl2 (s : State) (d : DsbScope) : (s.dsb d).tcrEl2 = s.tcrEl2 :=
  rfl
@[simp] theorem dsb_ttbr0El2 (s : State) (d : DsbScope) : (s.dsb d).ttbr0El2 = s.ttbr0El2 :=
  rfl
@[simp] theorem dsb_sctlrEl2 (s : State) (d : DsbScope) : (s.dsb d).sctlrEl2 = s.sctlrEl2 :=
  rfl
@[simp] theorem dsb_mairEl3 (s : State) (d : DsbScope) : (s.dsb d).mairEl3 = s.mairEl3 :=
  rfl
@[simp] theorem dsb_tcrEl3 (s : State) (d : DsbScope) : (s.dsb d).tcrEl3 = s.tcrEl3 :=
  rfl
@[simp] theorem dsb_ttbr0El3 (s : State) (d : DsbScope) : (s.dsb d).ttbr0El3 = s.ttbr0El3 :=
  rfl
@[simp] theorem dsb_sctlrEl3 (s : State) (d : DsbScope) : (s.dsb d).sctlrEl3 = s.sctlrEl3 :=
  rfl
@[simp] theorem dsb_idAa64mmfr0El1 (s : State) (d : DsbScope) : (s.dsb d).idAa64mmfr0El1 = s.idAa64mmfr0El1 :=
  rfl
@[simp] theorem dsb_x (s : State) (d : DsbScope) : (s.dsb d).x = s.x :=
  rfl
@[simp] theorem dsb_ctx (s : State) (d : DsbScope) : (s.dsb d).ctx = s.ctx :=
  rfl
@[simp] theorem dsb_curEl (s : State) (d : DsbScope) : (s.dsb d).curEl = s.curEl :=
  rfl
@[simp] theorem dsb_tlbClean (s : State) (d : DsbScope) : (s.dsb d).tlbClean = s.tlbClean :=
  rfl
@[simp] theorem dsb_cacheClean (s : State) (d : DsbScope) : (s.dsb d).cacheClean = s.cacheClean :=
  rfl
@[simp] theorem dsb_memPort (s : State) (d : DsbScope) : (s.dsb d).memPort = s.memPort :=
  rfl
@[simp] theorem dsb_cfg (s : State) (d : DsbScope) : (s.dsb d).cfg = s.cfg :=
  rfl
@[simp] theorem dsb_inputs (s : State) (d : DsbScope) : (s.dsb d).inputs = s.inputs :=
  rfl

/-! ## isb -/

@[simp] theorem isb_busy (s : State) : (s.isb).busy = s.busy :=
  by unfold State.isb; split <;> rfl
@[simp] theorem isb_mode (s : State) : (s.isb).mode = s.mode :=
  by unfold State.isb; split <;> rfl
@[simp] theorem isb_built (s : State) : (s.isb).built = s.built :=
  by unfold State.isb; split <;> rfl
@[simp] theorem isb_enabled (s : State) : (s.isb).enabled = s.enabled :=
  by unfold State.isb; split <;> rfl
@[simp] theorem isb_err (s : State) : (s.isb).err = s.err :=
  by unfold State.isb; split <;> rfl
@[simp] theorem isb_errcode (s : State) : (s.isb).errcode = s.errcode :=
  by unfold State.isb; split <;> rfl
@[simp] theorem isb_errinfo (s : State) : (s.isb).errinfo = s.errinfo :=
  by unfold State.isb; split <;> rfl
@[simp] theorem isb_ipc (s : State) : (s.isb).ipc = s.ipc :=
  by unfold State.isb; split <;> rfl
@[simp] theorem isb_upc (s : State) : (s.isb).upc = s.upc :=
  by unfold State.isb; split <;> rfl
@[simp] theorem isb_tmp (s : State) : (s.isb).tmp = s.tmp :=
  by unfold State.isb; split <;> rfl
@[simp] theorem isb_ps (s : State) : (s.isb).ps = s.ps :=
  by unfold State.isb; split <;> rfl
@[simp] theorem isb_encOut (s : State) : (s.isb).encOut = s.encOut :=
  by unfold State.isb; split <;> rfl
@[simp] theorem isb_mem (s : State) : (s.isb).mem = s.mem :=
  by unfold State.isb; split <;> rfl
@[simp] theorem isb_mairEl2 (s : State) : (s.isb).mairEl2 = s.mairEl2 :=
  by unfold State.isb; split <;> rfl
@[simp] theorem isb_tcrEl2 (s : State) : (s.isb).tcrEl2 = s.tcrEl2 :=
  by unfold State.isb; split <;> rfl
@[simp] theorem isb_ttbr0El2 (s : State) : (s.isb).ttbr0El2 = s.ttbr0El2 :=
  by unfold State.isb; split <;> rfl
@[simp] theorem isb_sctlrEl2 (s : State) : (s.isb).sctlrEl2 = s.sctlrEl2 :=
  by unfold State.isb; split <;> rfl
@[simp] theorem isb_mairEl3 (s : State) : (s.isb).mairEl3 = s.mairEl3 :=
  by unfold State.isb; split <;> rfl
@[simp] theorem isb_tcrEl3 (s : State) : (s.isb).tcrEl3 = s.tcrEl3 :=
  by unfold State.isb; split <;> rfl
@[simp] theorem isb_ttbr0El3 (s : State) : (s.isb).ttbr0El3 = s.ttbr0El3 :=
  by unfold State.isb; split <;> rfl
@[simp] theorem isb_sctlrEl3 (s : State) : (s.isb).sctlrEl3 = s.sctlrEl3 :=
  by unfold State.isb; split <;> rfl
@[simp] theorem isb_idAa64mmfr0El1 (s : State) : (s.isb).idAa64mmfr0El1 = s.idAa64mmfr0El1 :=
  by unfold State.isb; split <;> rfl
@[simp] theorem isb_x (s : State) : (s.isb).x = s.x :=
  by unfold State.isb; split <;> rfl
@[simp] theorem isb_walkerSync (s : State) : (s.isb).walkerSync = s.walkerSync :=
  by unfold State.isb; split <;> rfl
@[simp] theorem isb_curEl (s : State) : (s.isb).curEl = s.curEl :=
  by unfold State.isb; split <;> rfl
@[simp] theorem isb_tlbClean (s : State) : (s.isb).tlbClean = s.tlbClean :=
  by unfold State.isb; split <;> rfl
@[simp] theorem isb_cacheClean (s : State) : (s.isb).cacheClean = s.cacheClean :=
  by unfold State.isb; split <;> rfl
@[simp] theorem isb_memPort (s : State) : (s.isb).memPort = s.memPort :=
  by unfold State.isb; split <;> rfl
@[simp] theorem isb_cfg (s : State) : (s.isb).cfg = s.cfg :=
  by unfold State.isb; split <;> rfl
@[simp] theorem isb_inputs (s : State) : (s.isb).inputs = s.inputs :=
  by unfold State.isb; split <;> rfl

/-! ## uopDone -/

@[simp] theorem uopDone_built (s : State) : (s.uopDone).built = s.built :=
  by unfold State.uopDone; split <;> rfl
@[simp] theorem uopDone_err (s : State) : (s.uopDone).err = s.err :=
  by unfold State.uopDone; split <;> rfl
@[simp] theorem uopDone_errcode (s : State) : (s.uopDone).errcode = s.errcode :=
  by unfold State.uopDone; split <;> rfl
@[simp] theorem uopDone_errinfo (s : State) : (s.uopDone).errinfo = s.errinfo :=
  by unfold State.uopDone; split <;> rfl
@[simp] theorem uopDone_ipc (s : State) : (s.uopDone).ipc = s.ipc :=
  by unfold State.uopDone; split <;> rfl
@[simp] theorem uopDone_tmp (s : State) : (s.uopDone).tmp = s.tmp :=
  by unfold State.uopDone; split <;> rfl
@[simp] theorem uopDone_ps (s : State) : (s.uopDone).ps = s.ps :=
  by unfold State.uopDone; split <;> rfl
@[simp] theorem uopDone_encOut (s : State) : (s.uopDone).encOut = s.encOut :=
  by unfold State.uopDone; split <;> rfl
@[simp] theorem uopDone_mem (s : State) : (s.uopDone).mem = s.mem :=
  by unfold State.uopDone; split <;> rfl
@[simp] theorem uopDone_mairEl2 (s : State) : (s.uopDone).mairEl2 = s.mairEl2 :=
  by unfold State.uopDone; split <;> rfl
@[simp] theorem uopDone_tcrEl2 (s : State) : (s.uopDone).tcrEl2 = s.tcrEl2 :=
  by unfold State.uopDone; split <;> rfl
@[simp] theorem uopDone_ttbr0El2 (s : State) : (s.uopDone).ttbr0El2 = s.ttbr0El2 :=
  by unfold State.uopDone; split <;> rfl
@[simp] theorem uopDone_sctlrEl2 (s : State) : (s.uopDone).sctlrEl2 = s.sctlrEl2 :=
  by unfold State.uopDone; split <;> rfl
@[simp] theorem uopDone_mairEl3 (s : State) : (s.uopDone).mairEl3 = s.mairEl3 :=
  by unfold State.uopDone; split <;> rfl
@[simp] theorem uopDone_tcrEl3 (s : State) : (s.uopDone).tcrEl3 = s.tcrEl3 :=
  by unfold State.uopDone; split <;> rfl
@[simp] theorem uopDone_ttbr0El3 (s : State) : (s.uopDone).ttbr0El3 = s.ttbr0El3 :=
  by unfold State.uopDone; split <;> rfl
@[simp] theorem uopDone_sctlrEl3 (s : State) : (s.uopDone).sctlrEl3 = s.sctlrEl3 :=
  by unfold State.uopDone; split <;> rfl
@[simp] theorem uopDone_idAa64mmfr0El1 (s : State) : (s.uopDone).idAa64mmfr0El1 = s.idAa64mmfr0El1 :=
  by unfold State.uopDone; split <;> rfl
@[simp] theorem uopDone_x (s : State) : (s.uopDone).x = s.x :=
  by unfold State.uopDone; split <;> rfl
@[simp] theorem uopDone_ctx (s : State) : (s.uopDone).ctx = s.ctx :=
  by unfold State.uopDone; split <;> rfl
@[simp] theorem uopDone_walkerSync (s : State) : (s.uopDone).walkerSync = s.walkerSync :=
  by unfold State.uopDone; split <;> rfl
@[simp] theorem uopDone_curEl (s : State) : (s.uopDone).curEl = s.curEl :=
  by unfold State.uopDone; split <;> rfl
@[simp] theorem uopDone_tlbClean (s : State) : (s.uopDone).tlbClean = s.tlbClean :=
  by unfold State.uopDone; split <;> rfl
@[simp] theorem uopDone_cacheClean (s : State) : (s.uopDone).cacheClean = s.cacheClean :=
  by unfold State.uopDone; split <;> rfl
@[simp] theorem uopDone_memPort (s : State) : (s.uopDone).memPort = s.memPort :=
  by unfold State.uopDone; split <;> rfl
@[simp] theorem uopDone_cfg (s : State) : (s.uopDone).cfg = s.cfg :=
  by unfold State.uopDone; split <;> rfl
@[simp] theorem uopDone_inputs (s : State) : (s.uopDone).inputs = s.inputs :=
  by unfold State.uopDone; split <;> rfl

/-! ## entryWritten -/

@[simp] theorem entryWritten_enabled (s : State) : (s.entryWritten).enabled = s.enabled :=
  by unfold State.entryWritten; split <;> rfl
@[simp] theorem entryWritten_err (s : State) : (s.entryWritten).err = s.err :=
  by unfold State.entryWritten; split <;> rfl
@[simp] theorem entryWritten_errcode (s : State) : (s.entryWritten).errcode = s.errcode :=
  by unfold State.entryWritten; split <;> rfl
@[simp] theorem entryWritten_errinfo (s : State) : (s.entryWritten).errinfo = s.errinfo :=
  by unfold State.entryWritten; split <;> rfl
@[simp] theorem entryWritten_upc (s : State) : (s.entryWritten).upc = s.upc :=
  by unfold State.entryWritten; split <;> rfl
@[simp] theorem entryWritten_tmp (s : State) : (s.entryWritten).tmp = s.tmp :=
  by unfold State.entryWritten; split <;> rfl
@[simp] theorem entryWritten_ps (s : State) : (s.entryWritten).ps = s.ps :=
  by unfold State.entryWritten; split <;> rfl
@[simp] theorem entryWritten_encOut (s : State) : (s.entryWritten).encOut = s.encOut :=
  by unfold State.entryWritten; split <;> rfl
@[simp] theorem entryWritten_mem (s : State) : (s.entryWritten).mem = s.mem :=
  by unfold State.entryWritten; split <;> rfl
@[simp] theorem entryWritten_mairEl2 (s : State) : (s.entryWritten).mairEl2 = s.mairEl2 :=
  by unfold State.entryWritten; split <;> rfl
@[simp] theorem entryWritten_tcrEl2 (s : State) : (s.entryWritten).tcrEl2 = s.tcrEl2 :=
  by unfold State.entryWritten; split <;> rfl
@[simp] theorem entryWritten_ttbr0El2 (s : State) : (s.entryWritten).ttbr0El2 = s.ttbr0El2 :=
  by unfold State.entryWritten; split <;> rfl
@[simp] theorem entryWritten_sctlrEl2 (s : State) : (s.entryWritten).sctlrEl2 = s.sctlrEl2 :=
  by unfold State.entryWritten; split <;> rfl
@[simp] theorem entryWritten_mairEl3 (s : State) : (s.entryWritten).mairEl3 = s.mairEl3 :=
  by unfold State.entryWritten; split <;> rfl
@[simp] theorem entryWritten_tcrEl3 (s : State) : (s.entryWritten).tcrEl3 = s.tcrEl3 :=
  by unfold State.entryWritten; split <;> rfl
@[simp] theorem entryWritten_ttbr0El3 (s : State) : (s.entryWritten).ttbr0El3 = s.ttbr0El3 :=
  by unfold State.entryWritten; split <;> rfl
@[simp] theorem entryWritten_sctlrEl3 (s : State) : (s.entryWritten).sctlrEl3 = s.sctlrEl3 :=
  by unfold State.entryWritten; split <;> rfl
@[simp] theorem entryWritten_idAa64mmfr0El1 (s : State) : (s.entryWritten).idAa64mmfr0El1 = s.idAa64mmfr0El1 :=
  by unfold State.entryWritten; split <;> rfl
@[simp] theorem entryWritten_x (s : State) : (s.entryWritten).x = s.x :=
  by unfold State.entryWritten; split <;> rfl
@[simp] theorem entryWritten_ctx (s : State) : (s.entryWritten).ctx = s.ctx :=
  by unfold State.entryWritten; split <;> rfl
@[simp] theorem entryWritten_curEl (s : State) : (s.entryWritten).curEl = s.curEl :=
  by unfold State.entryWritten; split <;> rfl
@[simp] theorem entryWritten_tlbClean (s : State) : (s.entryWritten).tlbClean = s.tlbClean :=
  by unfold State.entryWritten; split <;> rfl
@[simp] theorem entryWritten_cacheClean (s : State) : (s.entryWritten).cacheClean = s.cacheClean :=
  by unfold State.entryWritten; split <;> rfl
@[simp] theorem entryWritten_memPort (s : State) : (s.entryWritten).memPort = s.memPort :=
  by unfold State.entryWritten; split <;> rfl
@[simp] theorem entryWritten_cfg (s : State) : (s.entryWritten).cfg = s.cfg :=
  by unfold State.entryWritten; split <;> rfl
@[simp] theorem entryWritten_inputs (s : State) : (s.entryWritten).inputs = s.inputs :=
  by unfold State.entryWritten; split <;> rfl

/-! ## What they write -/

/-- The error entry of a state without an error, in full (60_exceptions.md R205). -/
theorem raise_of_no_err {s : State} (h : s.err = false) (c : ErrCode) (w : Word64) :
    s.raise c w = { s with err := true, errcode := c, errinfo := w, busy := false, mode := .none } := by
  simp [State.raise, h]

/-- No second error is recorded (R26, R206). -/
theorem raise_of_err {s : State} (h : s.err = true) (c : ErrCode) (w : Word64) : s.raise c w = s := by
  simp [State.raise, h]

@[simp] theorem dsb_walkerSync (s : State) (d : DsbScope) : (s.dsb d).walkerSync = true := rfl

/-- The context an ISB leaves when VARIANT.EL selects a register set (20_memory.md R72). -/
theorem isb_ctx {s : State} {e : El} (h : elOf s.cfg.variant.el = some e) : s.isb.ctx = s.ctxOf e := by
  simp [State.isb, h]

@[simp] theorem setSysReg_sysReg_same (s : State) (e : El) (v : Word64) (f : El → SysReg)
    (hf : f = .mair ∨ f = .tcr ∨ f = .ttbr0 ∨ f = .sctlr) : (s.setSysReg (f e) v).sysReg (f e) = v := by
  rcases hf with rfl | rfl | rfl | rfl <;> cases e <;> rfl

theorem setSysReg_sysReg_other (s : State) {r r' : SysReg} (v : Word64) (h : r' ≠ r) :
    (s.setSysReg r v).sysReg r' = s.sysReg r' := by
  rcases r with (_ | _) | (_ | _) | (_ | _) | (_ | _) | _ <;>
    rcases r' with (_ | _) | (_ | _) | (_ | _) | (_ | _) | _ <;> first | rfl | exact absurd rfl h

@[simp] theorem raise_sysReg (s : State) (c : ErrCode) (w : Word64) (r : SysReg) : (s.raise c w).sysReg r = s.sysReg r := by
  rcases r with (_ | _) | (_ | _) | (_ | _) | (_ | _) | _ <;> simp [State.sysReg]
@[simp] theorem blockReset_sysReg (s : State) (r : SysReg) : (s.blockReset).sysReg r = s.sysReg r := by
  rcases r with (_ | _) | (_ | _) | (_ | _) | (_ | _) | _ <;> simp [State.sysReg]
@[simp] theorem writeX_sysReg (s : State) (n : Nat) (v : Word64) (r : SysReg) : (s.writeX n v).sysReg r = s.sysReg r := by
  rcases r with (_ | _) | (_ | _) | (_ | _) | (_ | _) | _ <;> simp [State.sysReg]
@[simp] theorem dsb_sysReg (s : State) (d : DsbScope) (r : SysReg) : (s.dsb d).sysReg r = s.sysReg r := by
  rcases r with (_ | _) | (_ | _) | (_ | _) | (_ | _) | _ <;> simp [State.sysReg]
@[simp] theorem isb_sysReg (s : State) (r : SysReg) : (s.isb).sysReg r = s.sysReg r := by
  rcases r with (_ | _) | (_ | _) | (_ | _) | (_ | _) | _ <;> simp [State.sysReg]
@[simp] theorem uopDone_sysReg (s : State) (r : SysReg) : (s.uopDone).sysReg r = s.sysReg r := by
  rcases r with (_ | _) | (_ | _) | (_ | _) | (_ | _) | _ <;> simp [State.sysReg]
@[simp] theorem entryWritten_sysReg (s : State) (r : SysReg) : (s.entryWritten).sysReg r = s.sysReg r := by
  rcases r with (_ | _) | (_ | _) | (_ | _) | (_ | _) | _ <;> simp [State.sysReg]

/-- XZR reads 0 (30_encoding.md R95). -/
@[simp] theorem readX_xzr (s : State) : s.readX 31 = 0 := rfl

/-- A write of XZR is discarded (R95). -/
@[simp] theorem writeX_xzr (s : State) (v : Word64) : s.writeX 31 v = s := rfl

theorem readX_writeX_same (s : State) {n : Nat} (v : Word64) (h : n < 31) : (s.writeX n v).readX n = v := by
  simp [State.readX, State.writeX, h]

theorem readX_writeX_other (s : State) {n k : Nat} (v : Word64) (h : k ≠ n) :
    (s.writeX n v).readX k = s.readX k := by
  unfold State.readX State.writeX
  split
  · split
    · simp [Ne.symm h]
    · rfl
  · rfl

/-- The port's answers (20_memory.md R73). -/
theorem sysRegWrite_ok {s : State} {r : SysReg} (h : minEl r ≤ s.curEl.val) (v : Word64) :
    s.sysRegWrite r v = some (s.setSysReg r v) := by
  simp [State.sysRegWrite, State.portOk, h]

theorem sysRegWrite_fault {s : State} {r : SysReg} (h : s.curEl.val < minEl r) (v : Word64) :
    s.sysRegWrite r v = none := by
  simp [State.sysRegWrite, State.portOk, Nat.not_le.mpr h]

theorem sysRegRead_ok {s : State} {r : SysReg} (h : minEl r ≤ s.curEl.val) : s.sysRegRead r = some (s.sysReg r) := by
  simp [State.sysRegRead, State.portOk, h]

theorem sysRegRead_fault {s : State} {r : SysReg} (h : s.curEl.val < minEl r) : s.sysRegRead r = none := by
  simp [State.sysRegRead, State.portOk, Nat.not_le.mpr h]

end Sys2Proof.Machine
end

