-- ==== Sys2Proof/Laws/Accept.lean ====
section
/-! SUPPORT. Command acceptance: everything it can do (60_exceptions.md R202 to R206), and what a legal configuration
means (41_initializer.md R141). -/

namespace Sys2Proof.Machine

/-- Everything the acceptance of a command can do: nothing once err = 1, the first error, or the command's effect. -/
theorem accept_cases (w : Word32) (k : CommandChecks) (f : State → State) (s : State) :
    (s.err = true ∧ accept w k f s = s) ∨
    (∃ e, s.err = false ∧ acceptError w k s = some e ∧ accept w k f s = s.raise e.code e.info) ∨
    (s.err = false ∧ acceptError w k s = none ∧ accept w k f s = f s) := by
  cases h : s.err
  · cases he : acceptError w k s with
    | none => exact .inr (.inr ⟨rfl, rfl, by simp [accept, h, he]⟩)
    | some e => exact .inr (.inl ⟨e, rfl, rfl, by simp [accept, h, he]⟩)
  · exact .inl ⟨rfl, by simp [accept, h]⟩

/-- What a legal configuration satisfies (R141). -/
theorem configError_none_iff (c : Config) :
    configError c = none ↔
      bits c.tableBase 15 0 = 0 ∧ c.tableBase.toNat + regionBytes ≤ 2 ^ 48 ∧ c.variant.devLo ≤ c.variant.devHi ∧
        c.variant.devHi ≤ mappedPages ∧ (c.variant.el = 2 ∨ c.variant.el = 3) := by
  by_cases h1 : bits c.tableBase 15 0 = 0
  · by_cases h2 : c.tableBase.toNat + regionBytes ≤ 2 ^ 48
    · by_cases h3 : c.variant.devLo ≤ c.variant.devHi ∧ c.variant.devHi ≤ mappedPages
      · by_cases h4 : c.variant.el = 2 ∨ c.variant.el = 3
        · simp only [configError, h1, h2, h3, h4, gt_iff_lt, Nat.not_lt.mpr h2, ne_eq, not_true_eq_false, if_false,
            and_self]
        · simp only [configError, h1, h3, h4, gt_iff_lt, Nat.not_lt.mpr h2, ne_eq, not_true_eq_false, not_false_eq_true,
            if_true, if_false, reduceCtorEq, and_self, and_false]
      · simp only [configError, h1, h3, gt_iff_lt, Nat.not_lt.mpr h2, ne_eq, not_true_eq_false, not_false_eq_true,
          if_true, if_false, reduceCtorEq, false_iff]
        exact fun h => h3 ⟨h.2.2.1, h.2.2.2.1⟩
    · simp only [configError, h1, gt_iff_lt, Nat.not_le.mp h2, ne_eq, not_true_eq_false, if_true, if_false, reduceCtorEq,
        h2, false_and, and_false]
  · simp only [configError, h1, ne_eq, not_false_eq_true, if_true, reduceCtorEq, false_and]

/-- Nothing is recorded as an error code but a cause (R201). -/
theorem configError_code {c : Config} {e : Err} (h : configError c = some e) :
    e.code = .align ∨ e.code = .config := by
  unfold configError at h
  split_ifs at h <;> cases h <;> simp

/-- When a command is accepted (R202). -/
theorem acceptError_none_iff (w : Word32) (k : CommandChecks) (s : State) :
    acceptError w k s = none ↔
      s.busy = false ∧ (k.oneShot = true → s.enabled = false) ∧ (k.needsBuilt = true → s.built = true) ∧
        configError s.cfg = none ∧ (∀ g, k.page = some g → g < mappedPages) := by
  unfold acceptError
  cases hc : configError s.cfg with
  | some e => split_ifs <;> simp
  | none =>
    cases hp : k.page with
    | none => split_ifs with h1 h2 h3 <;> simp_all
    | some g =>
      split_ifs <;> simp_all

/-- The causes acceptance can report are never NONE (R201). -/
theorem acceptError_code {w : Word32} {k : CommandChecks} {s : State} {e : Err} (h : acceptError w k s = some e) :
    e.code ≠ .none := by
  unfold acceptError at h
  cases hc : configError s.cfg with
  | some e' =>
    simp only [hc] at h
    split_ifs at h <;> cases h <;> try simp
    rcases configError_code hc with hh | hh <;> simp [hh]
  | none =>
    simp only [hc] at h
    cases hp : k.page with
    | none => simp only [hp] at h; split_ifs at h <;> cases h <;> simp
    | some g => simp only [hp] at h; split_ifs at h <;> cases h <;> simp

end Sys2Proof.Machine
end

