-- ==== Sys2Proof/Laws/Decode.lean ====
section
/-! SUPPORT. Fields of a word, and what the decoders can answer. -/

namespace Sys2Proof

/-- A field fits its width (00_scope.md R11). -/
theorem bits_lt {n : Nat} (v : BitVec n) (hi lo : Nat) : bits v hi lo < 2 ^ (hi + 1 - lo) :=
  Nat.mod_lt _ (Nat.two_pow_pos _)

/-- The row an MSR decodes to holds the register number it was given. -/
theorem msrOf_fits {r : SysReg} {rt : Nat} {i : Instr} (h : msrOf r rt = some i) (hr : rt < 2 ^ 5) : i.WellFormed := by
  rcases r with (_ | _) | (_ | _) | (_ | _) | (_ | _) | _ <;> simp only [msrOf, Option.some.injEq, reduceCtorEq] at h <;>
    subst h <;> exact decide_eq_true hr

/-- The row an MRS decodes to holds the register number it was given. -/
theorem mrsOf_fits {r : SysReg} {rt : Nat} {i : Instr} (h : mrsOf r rt = some i) (hr : rt < 2 ^ 5) : i.WellFormed := by
  rcases r with (_ | _) | (_ | _) | (_ | _) | (_ | _) | _ <;> simp only [mrsOf, Option.some.injEq, reduceCtorEq] at h <;>
    subst h <;> exact decide_eq_true hr

theorem decodeMove_fits {w : Word32} {i : Instr} (h : decodeMove w = some i) : i.WellFormed := by
  have hr : bits w 4 0 < 2 ^ 5 := bits_lt w 4 0
  simp only [decodeMove] at h
  split at h
  · cases h
  · split at h
    · exact msrOf_fits h hr
    · exact mrsOf_fits h hr

/-- What decodeA64 answers: one of the three barriers, or a move (30_encoding.md R95 to R97). -/
theorem decodeA64_cases {w : Word32} {i : Instr} (h : decodeA64 w = .ok i) :
    (w = dsbWord crmSy ∧ i = .dsbSy) ∨ (w = dsbWord crmIsh ∧ i = .dsbIsh) ∨ (w = isbWord crmSy ∧ i = .isb) ∨
    (bits w 31 22 = 0b1101010100 ∧ bits w 20 20 = 1 ∧ decodeMove w = some i) := by
  simp only [decodeA64] at h
  split_ifs at h with h1 h2 h3 h4
  · exact .inl ⟨h1, by cases h; rfl⟩
  · exact .inr (.inl ⟨h2, by cases h; rfl⟩)
  · exact .inr (.inr (.inl ⟨h3, by cases h; rfl⟩))
  · split at h
    next j hj => cases h; exact .inr (.inr (.inr ⟨h4.1, h4.2, hj⟩))
    next => cases h

/-- What decodeCommand answers: one of the four commands of R92, with no reserved bit set (R93). -/
theorem decodeCommand_cases {w : Word32} {i : Instr} (h : decodeCommand w = .ok i) :
    (bits w 31 28 = 1 ∧ bits w 27 0 = 0 ∧ i = .build) ∨ (bits w 31 28 = 2 ∧ bits w 27 0 = 0 ∧ i = .enable) ∨
    (bits w 31 28 = 3 ∧ bits w 27 13 = 0 ∧ i = .encTable (bits w 12 0)) ∨
    (bits w 31 28 = 4 ∧ bits w 27 17 = 0 ∧ i = .encPage (bits w 16 0)) := by
  unfold decodeCommand at h
  split at h <;> try split_ifs at h with hr
  all_goals cases h
  all_goals simp_all

theorem decodeCommand_fits {w : Word32} {i : Instr} (h : decodeCommand w = .ok i) : i.WellFormed := by
  obtain ⟨-, -, rfl⟩ | ⟨-, -, rfl⟩ | ⟨-, -, rfl⟩ | ⟨-, -, rfl⟩ := decodeCommand_cases h
  · rfl
  · rfl
  · exact decide_eq_true (bits_lt w 12 0)
  · exact decide_eq_true (bits_lt w 16 0)

theorem decodeA64_fits {w : Word32} {i : Instr} (h : decodeA64 w = .ok i) : i.WellFormed := by
  obtain ⟨-, rfl⟩ | ⟨-, rfl⟩ | ⟨-, rfl⟩ | ⟨-, -, hm⟩ := decodeA64_cases h
  · rfl
  · rfl
  · rfl
  · exact decodeMove_fits hm

/-- A decoded instruction is well formed. -/
theorem decode_fits {w : Word32} {i : Instr} (h : decode w = .ok i) : i.WellFormed := by
  unfold decode at h
  split at h
  next j hj => cases h; exact decodeA64_fits hj
  next => exact decodeCommand_fits h

end Sys2Proof
end

