-- ==== Sys2Proof/Laws/Memory.lean ====
section
/-! SUPPORT. Memory: reading after writing, the canonical form, and the little-endian doubleword (20_memory.md R60,
R64). -/

namespace Sys2Proof.Machine

@[simp] theorem memRead_nil (a : Nat) : memRead [] a = none := rfl

theorem memRead_memWrite_same (m : List Host.Cell) (a : Nat) (b : Byte) : memRead (memWrite m a b) a = some b := by
  induction m with
  | nil => simp [memWrite, memRead]
  | cons c rest ih =>
    obtain ⟨k, v⟩ := c
    simp only [memWrite]
    split_ifs with h1 h2
    · simp [memRead]
    · simp [memRead]
    · simp [memRead, h1, h2, ih]

theorem memRead_memWrite_other (m : List Host.Cell) {a a' : Nat} (b : Byte) (h : a' ≠ a) :
    memRead (memWrite m a b) a' = memRead m a' := by
  induction m with
  | nil => simp [memWrite, memRead, h]
  | cons c rest ih =>
    obtain ⟨k, v⟩ := c
    simp only [memWrite]
    split_ifs with h1 h2
    · simp only [memRead]
      split_ifs <;> first | rfl | omega
    · subst h2
      simp [memRead, h]
    · simp [memRead, ih]

theorem memRead_memWriteBytes_outside (bs : List Byte) (m : List Host.Cell) {a a' : Nat}
    (h : a' < a ∨ a + bs.length ≤ a') : memRead (memWriteBytes m a bs) a' = memRead m a' := by
  induction bs generalizing m a with
  | nil => rfl
  | cons b bs ih =>
    simp only [List.length_cons] at h
    rw [memWriteBytes, ih _ (by omega), memRead_memWrite_other _ _ (by omega)]

theorem memRead_memWriteBytes_inside (bs : List Byte) (m : List Host.Cell) (a k : Nat) (h : k < bs.length) :
    memRead (memWriteBytes m a bs) (a + k) = some bs[k] := by
  induction bs generalizing m a k with
  | nil => simp at h
  | cons b bs ih =>
    cases k with
    | zero =>
      rw [memWriteBytes, memRead_memWriteBytes_outside _ _ (by omega)]
      simpa using memRead_memWrite_same m a b
    | succ k =>
      have hi := ih (memWrite m a b) (a + 1) k (by simpa using h)
      rw [show a + 1 + k = a + (k + 1) by omega] at hi
      simpa [memWriteBytes] using hi

theorem memRising_mono {lo lo' : Nat} {m : List Host.Cell} (h : memRising lo m = true) (hl : lo' ≤ lo) :
    memRising lo' m = true := by
  cases m with
  | nil => rfl
  | cons c rest =>
    simp only [memRising, Bool.and_eq_true, decide_eq_true_eq] at h ⊢
    exact ⟨⟨by omega, h.1.2⟩, h.2⟩

theorem memRising_memWrite {lo a : Nat} {m : List Host.Cell} (b : Byte) (h : memRising lo m = true) (hl : lo ≤ a)
    (ha : a < 2 ^ 64) : memRising lo (memWrite m a b) = true := by
  induction m generalizing lo with
  | nil =>
    simp only [memWrite, memRising, Bool.and_true, Bool.and_eq_true, decide_eq_true_eq]
    exact ⟨hl, ha⟩
  | cons c rest ih =>
    obtain ⟨k, v⟩ := c
    simp only [memRising, Bool.and_eq_true, decide_eq_true_eq] at h
    simp only [memWrite]
    split_ifs with h1 h2
    · simp only [memRising, Bool.and_eq_true, decide_eq_true_eq]
      exact ⟨⟨hl, ha⟩, ⟨by omega, h.1.2⟩, h.2⟩
    · subst h2
      simp only [memRising, Bool.and_eq_true, decide_eq_true_eq]
      exact h
    · simp only [memRising, Bool.and_eq_true, decide_eq_true_eq]
      exact ⟨h.1, ih h.2 (by omega)⟩

/-- Every byte write keeps the canonical form. -/
theorem memWf_memWrite {m : List Host.Cell} {a : Nat} (b : Byte) (h : memWf m = true) (ha : a < 2 ^ 64) :
    memWf (memWrite m a b) = true :=
  memRising_memWrite b h (Nat.zero_le a) ha

/-- Every write of consecutive bytes keeps the canonical form. -/
theorem memWf_memWriteBytes (bs : List Byte) {m : List Host.Cell} {a : Nat} (h : memWf m = true)
    (ha : a + bs.length ≤ 2 ^ 64) : memWf (memWriteBytes m a bs) = true := by
  induction bs generalizing m a with
  | nil => exact h
  | cons b bs ih =>
    simp only [List.length_cons] at ha
    exact ih (memWf_memWrite b h (by omega)) (by omega)

theorem memReadBytes_congr {m m' : List Host.Cell} {a n : Nat}
    (h : ∀ k, k < n → memRead m' (a + k) = memRead m (a + k)) : memReadBytes m' a n = memReadBytes m a n := by
  induction n generalizing a with
  | zero => rfl
  | succ n ih =>
    have h0 := h 0 (by omega)
    simp only [Nat.add_zero] at h0
    simp only [memReadBytes, h0]
    rw [ih fun k hk => by simpa [Nat.add_assoc, Nat.add_comm 1] using h (k + 1) (by omega)]

theorem memReadBytes_of_bytes {m : List Host.Cell} {a : Nat} (bs : List Byte)
    (h : ∀ k (hk : k < bs.length), memRead m (a + k) = some bs[k]) : memReadBytes m a bs.length = some bs := by
  induction bs generalizing a with
  | nil => rfl
  | cons b bs ih =>
    have h0 := h 0 (by simp)
    simp only [Nat.add_zero, List.getElem_cons_zero] at h0
    have ht := ih (a := a + 1) fun k hk => by
      have hi := h (k + 1) (by simpa using hk)
      rw [show a + (k + 1) = a + 1 + k by omega] at hi
      simpa using hi
    simp [memReadBytes, h0, ht]

@[simp] theorem length_bytesOfWord (v : Word64) : (bytesOfWord v).length = 8 := rfl

/-- The little-endian bytes of a doubleword spell it (R60). -/
theorem ofNat_numberOfBytes_bytesOfWord (v : Word64) : BitVec.ofNat 64 (numberOfBytes (bytesOfWord v)) = v := by
  apply BitVec.eq_of_toNat_eq
  have h := v.isLt
  simp only [bytesOfWord, byteOf, numberOfBytes, BitVec.extractLsb'_toNat, BitVec.toNat_ofNat, Nat.shiftRight_eq_div_pow]
  omega

/-- Reading a doubleword after writing it gives it back. -/
theorem memReadWord_memWriteBytes_same (m : List Host.Cell) (a : Nat) (v : Word64) :
    memReadWord (memWriteBytes m a (bytesOfWord v)) a = some v := by
  have h := memReadBytes_of_bytes (m := memWriteBytes m a (bytesOfWord v)) (a := a) (bytesOfWord v)
    fun k hk => memRead_memWriteBytes_inside (bytesOfWord v) m a k hk
  rw [length_bytesOfWord] at h
  simp [memReadWord, h, ofNat_numberOfBytes_bytesOfWord]

/-- A doubleword elsewhere is unchanged by writing one. -/
theorem memReadWord_memWriteBytes_other (m : List Host.Cell) {a a' : Nat} (v : Word64)
    (h : a' + 8 ≤ a ∨ a + 8 ≤ a') :
    memReadWord (memWriteBytes m a (bytesOfWord v)) a' = memReadWord m a' := by
  unfold memReadWord
  rw [memReadBytes_congr fun k hk => memRead_memWriteBytes_outside _ _ (by simp only [length_bytesOfWord]; omega)]

/-- The bytes of a doubleword determine what it reads as. -/
theorem memReadWord_congr {m m' : List Host.Cell} {a : Nat}
    (h : ∀ k, k < 8 → memRead m' (a + k) = memRead m (a + k)) : memReadWord m' a = memReadWord m a := by
  unfold memReadWord
  rw [memReadBytes_congr h]

end Sys2Proof.Machine
end

