-- ==== Sys2Proof/Laws/Initializer.lean ====
section
/-! SUPPORT. INIT: the memory port's answers, the addresses of a legal configuration, and everything one INIT step can
do (41_initializer.md R143, R145). -/

namespace Sys2Proof.Machine

/-- What a legal configuration says of TABLE_BASE (20_memory.md R62, R66). -/
theorem tableBase_of_legal {c : Config} (h : configError c = none) :
    c.tableBase.toNat % 65536 = 0 ∧ c.tableBase.toNat + 655360 ≤ 2 ^ 48 := by
  obtain ⟨h1, h2, -⟩ := (configError_none_iff c).1 h
  simp only [bits, regionBytes] at h1 h2
  omega

/-- An accepted MemWrite (00_scope.md R13). -/
theorem memWrite64_ok {s : State} (h : s.memPort.head? ≠ some .reject) (a : Nat) (v : Word64) :
    s.memWrite64 a v =
      .ok { s with mem := memWriteBytes s.mem a (bytesOfWord v), memPort := s.memPort.tail } := by
  unfold State.memWrite64
  cases hp : s.memPort with
  | nil =>
    cases s
    simp only at hp
    subst hp
    rfl
  | cons p rest =>
    cases p with
    | accept => rfl
    | reject => simp [hp] at h

/-- A rejected MemWrite (R13). -/
theorem memWrite64_reject {s : State} (h : s.memPort.head? = some .reject) (a : Nat) (v : Word64) :
    s.memWrite64 a v = .reject { s with memPort := s.memPort.tail } := by
  unfold State.memWrite64
  cases hp : s.memPort with
  | nil => simp [hp] at h
  | cons p rest =>
    cases p with
    | accept => simp [hp] at h
    | reject => rfl

/-- Everything an INIT step before the last entry can do with a legal configuration: write its entry or raise MEM. -/
theorem initStep_cases {s : State} (hi : s.ipc.toNat < totalEntries) (hc : configError s.cfg = none) :
    (s.memPort.head? ≠ some .reject ∧
      initStep s = .next (State.entryWritten { s with
        mem := memWriteBytes s.mem (entryAddr s.cfg s.ipc.toNat) (bytesOfWord (entry s.cfg s.ipc.toNat)),
        memPort := s.memPort.tail })) ∨
    (s.memPort.head? = some .reject ∧
      initStep s = .next (State.raise { s with memPort := s.memPort.tail } .mem
        (BitVec.ofNat 64 (entryAddr s.cfg s.ipc.toNat)))) := by
  have hb := tableBase_of_legal hc
  have h1 : ¬totalEntries ≤ s.ipc.toNat := Nat.not_le.mpr hi
  have h2 : ¬2 ^ 64 < entryAddr s.cfg s.ipc.toNat + 8 := by
    simp only [totalEntries] at hi
    simp only [entryAddr]
    omega
  by_cases hp : s.memPort.head? = some .reject
  · exact .inr ⟨hp, by simp only [initStep, if_neg h1, if_neg h2, memWrite64_reject hp]⟩
  · exact .inl ⟨hp, by simp only [initStep, if_neg h1, if_neg h2, memWrite64_ok hp]⟩

/-- The counter after an INIT write does not wrap (00_scope.md R11). -/
theorem ipc_succ_toNat {s : State} (hi : s.ipc.toNat < totalEntries) : (s.ipc + 1).toNat = s.ipc.toNat + 1 := by
  simp only [totalEntries] at hi
  simp [BitVec.toNat_add]
  omega

end Sys2Proof.Machine
end

