-- ==== Sys2Proof/Laws/Descriptor.lean ====
section
/-! SUPPORT. The descriptors of ENC as numbers (40_encoder.md R111 to R119). -/

namespace Sys2Proof.Machine

/-- Bits below an aligned number add to it. -/
theorem or_low_eq_add {n c k : Nat} (hc : c < 2 ^ k) : n * 2 ^ k ||| c = n * 2 ^ k + c := by
  rw [← Nat.shiftLeft_eq, Nat.shiftLeft_add_eq_or_of_lt hc]

/-- A one-bit field as a Boolean (00_scope.md R11). -/
theorem getLsbD_eq_bits {n : Nat} (v : BitVec n) (i : Nat) : v.getLsbD i = decide (bits v i i = 1) := by
  simp [BitVec.getLsbD, Nat.testBit_eq_decide_div_mod_eq, bits]

/-- A RAM page descriptor (R116). -/
theorem encPageRam_toNat {g : Nat} (hg : g < 2 ^ 32) : (encPageRam g).toNat = g * 2 ^ 16 + 0x743 := by
  have h : ramAttrs.toNat = 0x743 := by decide
  simp only [encPageRam, BitVec.toNat_or, BitVec.toNat_shiftLeft, BitVec.toNat_ofNat, h, Nat.shiftLeft_eq]
  rw [Nat.mod_eq_of_lt (a := g) (by omega), Nat.mod_eq_of_lt (by omega), or_low_eq_add (by omega)]

/-- The attributes of a device page in its upper and lower part (R114, R117). -/
theorem devLow_toNat (ns : Bool) :
    (devAttrs ||| if ns then flagNs else 0).toNat = 0x60 * 2 ^ 48 + (0x647 + ns.toNat * 32) := by
  cases ns <;> decide

/-- A device page descriptor (R117). -/
theorem encPageDev_toNat (c : Config) {g : Nat} (hg : g < 2 ^ 32) :
    (encPageDev c g).toNat = 0x60 * 2 ^ 48 + g * 2 ^ 16 + (0x647 + c.variant.devNs.toNat * 32) := by
  have hns := Bool.toNat_le c.variant.devNs
  have h1 : g * 2 ^ 16 ||| (0x60 * 2 ^ 48 + (0x647 + c.variant.devNs.toNat * 32)) =
      0x60 * 2 ^ 48 + g * 2 ^ 16 + (0x647 + c.variant.devNs.toNat * 32) := by
    rw [← or_low_eq_add (by omega), ← Nat.or_assoc, Nat.or_comm (g * 2 ^ 16), or_low_eq_add (by omega),
      show 0x60 * 2 ^ 48 + g * 2 ^ 16 = (0x60 * 2 ^ 32 + g) * 2 ^ 16 by omega, or_low_eq_add (by omega)]
  simp only [encPageDev, BitVec.or_assoc]
  rw [BitVec.toNat_or, devLow_toNat, BitVec.toNat_shiftLeft, BitVec.toNat_ofNat, Nat.shiftLeft_eq,
    Nat.mod_eq_of_lt (a := g) (by omega), Nat.mod_eq_of_lt (by omega), h1]

/-- A leaf entry, by its class (R113, R118). -/
theorem encLeaf_cases (c : Config) {g : Nat} (hg : g < 2 ^ 32) :
    (classOf c g = .ram ∧ (encLeaf c g).toNat = g * 2 ^ 16 + 0x743) ∨
    (classOf c g = .dev ∧
      (encLeaf c g).toNat = 0x60 * 2 ^ 48 + g * 2 ^ 16 + (0x647 + c.variant.devNs.toNat * 32)) := by
  unfold encLeaf
  cases classOf c g
  · exact .inl ⟨rfl, encPageRam_toNat hg⟩
  · exact .inr ⟨rfl, encPageDev_toNat c hg⟩

/-- A table descriptor of a legal configuration (R115). -/
theorem encTableDesc_toNat {c : Config} {k : Nat} (hc : configError c = none) (hk : k < 9) :
    (encTableDesc c k).toNat = c.tableBase.toNat + 0x10000 * (k + 1) + 3 := by
  obtain ⟨h1, h2⟩ := tableBase_of_legal hc
  have he : c.tableBase.toNat + 65536 * (k + 1) = (c.tableBase.toNat / 65536 + (k + 1)) * 2 ^ 16 := by omega
  have hv : validTable.toNat = 3 := rfl
  simp only [encTableDesc, leafBase, tableBytes, BitVec.toNat_or, BitVec.toNat_ofNat, hv]
  rw [he, Nat.mod_eq_of_lt (by omega), or_low_eq_add (by omega)]

end Sys2Proof.Machine
end

