-- ==== Sys2Proof/Laws/Flags.lean ====
section
/-! SUPPORT. STATUS as a number (10_state.md R32). -/

namespace Sys2Proof.Machine

/-- Concatenation puts its first part above its second (00_scope.md R11). -/
theorem toNat_concat {n m : Nat} (x : BitVec n) (y : BitVec m) : (x ++ y).toNat = x.toNat * 2 ^ m + y.toNat := by
  rw [BitVec.toNat_append, ← Nat.shiftLeft_add_eq_or_of_lt y.isLt, Nat.shiftLeft_eq]

/-- The fields of STATUS by their weights (R32). -/
theorem status_toNat (s : State) :
    s.status.toNat =
      (modeBits s.mode).toNat * 2 ^ 12 + s.upc.toNat * 2 ^ 8 + (errBits s.errcode).toNat * 2 ^ 4 + s.err.toNat * 2 ^ 3 +
        s.enabled.toNat * 2 ^ 2 + s.built.toNat * 2 + s.busy.toNat := by
  simp only [State.status, toNat_concat, BitVec.toNat_ofBool, BitVec.toNat_ofNat]
  omega

theorem modeBits_lt (m : Mode) : (modeBits m).toNat < 3 := by cases m <;> decide

theorem errBits_le (c : ErrCode) : (errBits c).toNat ≤ 0xA := by cases c <;> decide

end Sys2Proof.Machine
end

