-- ==== Sys2Proof/Laws/PerInstr.lean ====
section
/-! SUPPORT. Facts stated of every instruction, one lemma per constructor. -/

namespace Sys2Proof.Laws.DecodedFits

/-- Whatever word an instruction is decoded from, its operands fit their fields (30_encoding.md R93, R95, R100). -/
def Statement (i : Instr) : Prop := ∀ w : Word32, decode w = .ok i → i.WellFormed

theorem build : Statement (.build) := fun _ h => decode_fits h
theorem enable : Statement (.enable) := fun _ h => decode_fits h
theorem encTable (slot : Nat) : Statement (.encTable slot) := fun _ h => decode_fits h
theorem encPage (g : Nat) : Statement (.encPage g) := fun _ h => decode_fits h
theorem msrMairEl3 (rt : Nat) : Statement (.msrMairEl3 rt) := fun _ h => decode_fits h
theorem msrTcrEl3 (rt : Nat) : Statement (.msrTcrEl3 rt) := fun _ h => decode_fits h
theorem msrTtbr0El3 (rt : Nat) : Statement (.msrTtbr0El3 rt) := fun _ h => decode_fits h
theorem msrSctlrEl3 (rt : Nat) : Statement (.msrSctlrEl3 rt) := fun _ h => decode_fits h
theorem mrsSctlrEl3 (rt : Nat) : Statement (.mrsSctlrEl3 rt) := fun _ h => decode_fits h
theorem msrMairEl2 (rt : Nat) : Statement (.msrMairEl2 rt) := fun _ h => decode_fits h
theorem msrTcrEl2 (rt : Nat) : Statement (.msrTcrEl2 rt) := fun _ h => decode_fits h
theorem msrTtbr0El2 (rt : Nat) : Statement (.msrTtbr0El2 rt) := fun _ h => decode_fits h
theorem msrSctlrEl2 (rt : Nat) : Statement (.msrSctlrEl2 rt) := fun _ h => decode_fits h
theorem mrsSctlrEl2 (rt : Nat) : Statement (.mrsSctlrEl2 rt) := fun _ h => decode_fits h
theorem mrsIdAa64mmfr0El1 (rt : Nat) : Statement (.mrsIdAa64mmfr0El1 rt) := fun _ h => decode_fits h
theorem dsbSy : Statement (.dsbSy) := fun _ h => decode_fits h
theorem dsbIsh : Statement (.dsbIsh) := fun _ h => decode_fits h
theorem isb : Statement (.isb) := fun _ h => decode_fits h

end Sys2Proof.Laws.DecodedFits
end

