-- ==== Sys2Proof/Laws/Walk.lean ====
section
/-! SUPPORT. The consumer: what an access by pages can answer, and accesses with one context in effect (20_memory.md R70
to R72, R77). -/

namespace Sys2Proof.Machine

/-- What an ISB copies is a function of the four registers of the level (R72). -/
theorem ctxOf_congr {s t : State} {e : El} (h1 : t.sysReg (.mair e) = s.sysReg (.mair e))
    (h2 : t.sysReg (.tcr e) = s.sysReg (.tcr e)) (h3 : t.sysReg (.ttbr0 e) = s.sysReg (.ttbr0 e))
    (h4 : t.sysReg (.sctlr e) = s.sysReg (.sctlr e)) : t.ctxOf e = s.ctxOf e := by
  simp only [State.ctxOf, h1, h2, h3, h4]

@[simp] theorem ctxOf_mmuOn (s : State) (e : El) : (s.ctxOf e).mmuOn = (s.sysReg (.sctlr e)).getLsbD 0 := rfl
@[simp] theorem ctxOf_mair (s : State) (e : El) : (s.ctxOf e).mair = s.sysReg (.mair e) := rfl
@[simp] theorem ctxOf_tcr (s : State) (e : El) : (s.ctxOf e).tcr = s.sysReg (.tcr e) := rfl
@[simp] theorem ctxOf_ttbr0 (s : State) (e : El) : (s.ctxOf e).ttbr0 = s.sysReg (.ttbr0 e) := rfl
@[simp] theorem ctxOf_ctl (s : State) (e : El) : (s.ctxOf e).ctl = sctlrControls (s.sysReg (.sctlr e)) := rfl

@[simp] theorem sctlrControls_a (v : Word64) : (sctlrControls v).a = v.getLsbD 1 := rfl
@[simp] theorem sctlrControls_c (v : Word64) : (sctlrControls v).c = v.getLsbD 2 := rfl
@[simp] theorem sctlrControls_i (v : Word64) : (sctlrControls v).i = v.getLsbD 12 := rfl
@[simp] theorem sctlrControls_wxn (v : Word64) : (sctlrControls v).wxn = v.getLsbD 19 := rfl
@[simp] theorem sctlrControls_ee (v : Word64) : (sctlrControls v).ee = v.getLsbD 25 := rfl

/-- Where every piece of an access has its translation, the access has them all. -/
theorem translatePieces_ok {s : State} {c : Ctx} {e : El} {a : Access} (f : Nat → Translation) {k n : Nat}
    (h : ∀ j, k ≤ j → j < k + n → translatePiece s c e a (a.piece j) = .ok (f j)) :
    translatePieces s c e a k n = .ok ((List.range' k n).map f) := by
  induction n generalizing k with
  | zero => rfl
  | succ n ih =>
    have hi := ih (k := k + 1) fun j h1 h2 => h j (by omega) (by omega)
    simp only [translatePieces, h k (Nat.le_refl k) (by omega), hi, List.range'_succ, List.map_cons]

/-- The first piece that has none decides: the pieces before it have theirs. -/
theorem translatePieces_error {s : State} {c : Ctx} {e : El} {a : Access} {r : MmuStop} {k n j : Nat} (hk : k ≤ j)
    (hn : j < k + n) (h : ∀ i, k ≤ i → i < j → ∃ t, translatePiece s c e a (a.piece i) = .ok t)
    (hj : translatePiece s c e a (a.piece j) = .error r) : translatePieces s c e a k n = .error r := by
  induction n generalizing k with
  | zero => omega
  | succ n ih =>
    rcases Nat.eq_or_lt_of_le hk with rfl | hlt
    · simp only [translatePieces, hj]
    · obtain ⟨t, ht⟩ := h k (Nat.le_refl k) hlt
      simp only [translatePieces, ht, ih (k := k + 1) hlt (by omega) fun i h1 h2 => h i (by omega) h2]

/-- An access with one context in effect, at the level it belongs to (R72). -/
theorem mmuAccess_of_synced {s : State} {e : El} (he : elOf s.cfg.variant.el = some e)
    (hl : s.curEl.val = s.cfg.variant.el) (hc : s.ctx = s.ctxOf e) (a : Access) :
    mmuAccess s a = accessUnder s s.ctx e a := by
  simp [mmuAccess, he, hl, ← hc]

/-- EE = 0 selects little-endian for every data access (R61). -/
theorem dataOrder_of_ee_clear {c : AccessControls} {k : AccessKind} (h : c.ee = false) (hk : k ≠ .fetch) :
    c.dataOrder k = some .little := by
  cases k <;> simp_all [AccessControls.dataOrder]

/-- EE = 1 selects big-endian for every data access (R61; log entry 27). -/
theorem dataOrder_of_ee_set {c : AccessControls} {k : AccessKind} (h : c.ee = true) (hk : k ≠ .fetch) :
    c.dataOrder k = some .big := by
  cases k <;> simp_all [AccessControls.dataOrder]

@[simp] theorem dataOrder_fetch (c : AccessControls) : c.dataOrder .fetch = none := rfl

/-- The byte order is a function of EE. -/
theorem dataOrder_congr {c c' : AccessControls} (h : c'.ee = c.ee) (k : AccessKind) : c'.dataOrder k = c.dataOrder k := by
  cases k <;> simp [AccessControls.dataOrder, h]

/-- With the MMU off in the context in effect and in the registers, and one EE in both, no access is translated and its
byte order is EE's (R61, R72, R238). -/
theorem mmuAccess_of_off {s : State} {e : El} (he : elOf s.cfg.variant.el = some e)
    (hl : s.curEl.val = s.cfg.variant.el) (h : s.ctx.mmuOn = false) (h' : (s.sysReg (.sctlr e)).getLsbD 0 = false)
    (hee : (s.sysReg (.sctlr e)).getLsbD 25 = s.ctx.ctl.ee) (a : Access) :
    mmuAccess s a = .untranslated (s.ctx.ctl.dataOrder a.kind) := by
  have hd : (s.ctxOf e).ctl.dataOrder a.kind = s.ctx.ctl.dataOrder a.kind := dataOrder_congr hee a.kind
  simp only [mmuAccess, he]
  rw [if_neg (not_not.mpr hl)]
  simp [accessUnder, h, -ctxOf_mmuOn, -ctxOf_ctl, show (s.ctxOf e).mmuOn = false from h', hd]

end Sys2Proof.Machine
end

