-- ==== Sys2Proof/Laws/Safety.lean ====
section
/-! SUPPORT. What the premises and invariants of Safety.lean depend on: neither the schedule nor what they do not name. -/

namespace Sys2Proof

open Machine

/-- ControlInv reads the block's control registers and the configuration. -/
theorem controlInv_congr {s t : State} (hb : t.busy = s.busy) (hm : t.mode = s.mode) (hu : t.built = s.built)
    (he : t.enabled = s.enabled) (hr : t.err = s.err) (hc : t.errcode = s.errcode) (hi : t.errinfo = s.errinfo)
    (hp : t.ipc = s.ipc) (hn : t.upc = s.upc) (hf : t.cfg = s.cfg) (h : ControlInv s) : ControlInv t := by
  obtain ⟨h1, h2, h3, h4, h5, h6, h7, h8, h9, h10⟩ := h
  constructor <;> simp only [hb, hm, hu, he, hr, hc, hi, hp, hn, hf] <;> assumption

/-- The schedule and memory are no part of ControlInv. -/
theorem controlInv_inputs {s : State} (h : ControlInv s) (l : List Input) : ControlInv { s with inputs := l } :=
  controlInv_congr (s := s) rfl rfl rfl rfl rfl rfl rfl rfl rfl rfl h
theorem controlInv_mem {s : State} (h : ControlInv s) (m : List Host.Cell) : ControlInv { s with mem := m } :=
  controlInv_congr (s := s) rfl rfl rfl rfl rfl rfl rfl rfl rfl rfl h

/-- EntriesHeld reads the doublewords of the region and the configuration. -/
theorem entriesHeld_congr {s t : State} {n : Nat} (hf : t.cfg = s.cfg)
    (hw : ∀ i, i < n → t.readWord (entryAddr s.cfg i) = s.readWord (entryAddr s.cfg i)) (h : EntriesHeld s n) :
    EntriesHeld t n := by
  intro i hi
  rw [hf, hw i hi]
  exact h i hi

/-- TableInv reads memory, ipc, the mode, built and the configuration. -/
theorem tableInv_congr {s t : State} (hm : t.mem = s.mem) (hd : t.mode = s.mode) (hu : t.built = s.built)
    (hp : t.ipc = s.ipc) (hf : t.cfg = s.cfg) (h : TableInv s) : TableInv t := by
  have hw : ∀ a, t.readWord a = s.readWord a := fun a => by simp only [State.readWord, hm]
  refine ⟨by rw [hm]; exact h.memWf, fun hb => ?_, fun hb => ?_⟩
  · rw [hp]; exact entriesHeld_congr hf (fun i _ => hw _) (h.building (hd ▸ hb))
  · exact entriesHeld_congr hf (fun i _ => hw _) (h.built (hu ▸ hb))

/-- A region whose every entry is there is TablesHeld's (41_initializer.md R142, R150). -/
theorem tablesHeld_of_entries {s : State} (h : EntriesHeld s totalEntries) : TablesHeld s := by
  refine ⟨fun r hr => ?_, fun g hg => ?_⟩
  · have he := h r (by simp only [rootEntries, totalEntries] at *; omega)
    simp only [entry, if_pos hr] at he
    exact he
  · have he := h (rootEntries + g) (by simp only [rootEntries, totalEntries, mappedPages] at *; omega)
    simp only [entry, if_neg (Nat.not_lt.mpr (Nat.le_add_right rootEntries g)), Nat.add_sub_cancel_left] at he
    rwa [show entryAddr s.cfg (rootEntries + g) = s.cfg.tableBase.toNat + 0x10000 + 8 * g by
      simp only [entryAddr, rootEntries]; omega] at he

/-- SeqDone reads the level's registers, ID_AA64MMFR0_EL1, ps, tmp, the hidden state and the configuration. -/
theorem seqDone_congr {s t : State} {e : El} {n : Nat} (hr : ∀ r, IsTarget e r → t.sysReg r = s.sysReg r)
    (hi : t.idAa64mmfr0El1 = s.idAa64mmfr0El1) (hp : t.ps = s.ps) (hw : t.walkerSync = s.walkerSync) (hx : t.ctx = s.ctx)
    (ht : t.tmp = s.tmp) (hf : t.cfg = s.cfg) (h : SeqDone s e n) : SeqDone t e n := by
  have r1 := hr (.mair e) (.inl rfl)
  have r2 := hr (.tcr e) (.inr (.inl rfl))
  have r3 := hr (.ttbr0 e) (.inr (.inr (.inl rfl)))
  have r4 := hr (.sctlr e) (.inr (.inr (.inr rfl)))
  obtain ⟨h1, h2, h3, h4, h5, h6, h7, h8, h9, h10⟩ := h
  constructor <;> simp only [ctxOf_congr r1 r2 r3 r4, r1, r2, r3, r4, hi, hp, hw, hx, ht, hf] <;> assumption

/-- SeqInv reads those of VARIANT.EL, upc, the mode and enabled. -/
theorem seqInv_congr {s t : State}
    (hr : ∀ e, elOf s.cfg.variant.el = some e → ∀ r, IsTarget e r → t.sysReg r = s.sysReg r)
    (hi : t.idAa64mmfr0El1 = s.idAa64mmfr0El1) (hp : t.ps = s.ps) (hw : t.walkerSync = s.walkerSync) (hx : t.ctx = s.ctx)
    (ht : t.tmp = s.tmp) (hf : t.cfg = s.cfg) (hu : t.upc = s.upc) (hm : t.mode = s.mode) (he : t.enabled = s.enabled)
    (h : SeqInv s) : SeqInv t where
  running h' e he' := by
    have he1 : elOf s.cfg.variant.el = some e := hf ▸ he'
    rw [hu]
    exact seqDone_congr (hr e he1) hi hp hw hx ht hf (h.running (hm ▸ h') e he1)
  enabled h' e he' := by
    have he1 : elOf s.cfg.variant.el = some e := hf ▸ he'
    exact seqDone_congr (hr e he1) hi hp hw hx ht hf (h.enabled (he ▸ h') e he1)

/-- The schedule is no part of SeqInv. -/
theorem seqInv_inputs {s : State} (h : SeqInv s) (l : List Input) : SeqInv { s with inputs := l } :=
  seqInv_congr (s := s) (fun _ _ r _ => by rcases r with (_ | _) | (_ | _) | (_ | _) | (_ | _) | _ <;> rfl) rfl rfl rfl rfl
    rfl rfl rfl rfl rfl h

/-- An action that is no word of the CPU writes no target register. -/
theorem targetUntouched_of_no_cpu {s : State} (h : ∀ w, s.inputs.head? ≠ some (.cpu w)) : TargetUntouched s :=
  fun w _ _ _ hi _ _ _ _ => absurd hi (h w)

/-- A CPU word that decodes is judged by its instruction. -/
theorem targetUntouched_of_word {s : State} {w : Word32} {rest : List Input} {i : Instr} (hs : s.inputs = .cpu w :: rest)
    (hd : decodeA64 w = .ok i)
    (h : ∀ e r, elOf s.cfg.variant.el = some e → msrTarget i = some r → IsTarget e r → s.seqRuns i = true) :
    TargetUntouched s := by
  intro w' i' e r hw hd' he hm hr
  rw [hs] at hw
  cases hw
  rw [hd] at hd'
  cases hd'
  exact h e r he hm hr

end Sys2Proof
end

