-- ==== Sys2Proof/Laws/Sequencer.lean ====
section
/-! SUPPORT. The micro-program: the instructions its words decode to, and what running one as a µop does
(42_sequencer.md R161, R162). -/

namespace Sys2Proof.Machine

/-- DSB with a scope. -/
def dsbInstr : DsbScope → Instr
  | .sy => .dsbSy
  | .ish => .dsbIsh

/-- The instructions of µops u0 to u9 (R161, 30_encoding.md R98). -/
def uopTable (scope : DsbScope) : El → List Instr
  | .el3 =>
    [.msrMairEl3 0, .mrsIdAa64mmfr0El1 0, .msrTcrEl3 0, .msrTtbr0El3 0, dsbInstr scope, .isb, .mrsSctlrEl3 0,
      .msrSctlrEl3 0, .dsbSy, .isb]
  | .el2 =>
    [.msrMairEl2 0, .mrsIdAa64mmfr0El1 0, .msrTcrEl2 0, .msrTtbr0El2 0, dsbInstr scope, .isb, .mrsSctlrEl2 0,
      .msrSctlrEl2 0, .dsbSy, .isb]

theorem uopWords_length (scope : DsbScope) (e : El) : (uopWords scope e).length = 10 := by cases e <;> rfl

/-- The words of R98 decode to the µops of R161. -/
theorem uopInstr_eq {c : Config} {e : El} (h : elOf c.variant.el = some e) (n : Nat) :
    uopInstr c n = (uopTable c.dsb1Scope e)[n]? := by
  by_cases hn : n < 10
  · cases hs : c.dsb1Scope <;> cases e <;> simp only [uopInstr, uopWord, h, hs] <;> interval_cases n <;> decide
  · have h1 : (uopWords c.dsb1Scope e)[n]? = none := by
      rw [List.getElem?_eq_none_iff, uopWords_length]; omega
    have h2 : (uopTable c.dsb1Scope e)[n]? = none := by
      rw [List.getElem?_eq_none_iff]; cases e <;> simp only [uopTable, List.length_cons, List.length_nil] <;> omega
    simp [uopInstr, uopWord, h, h1, h2]

/-- Without a register set there is no µop. -/
theorem uopInstr_none {c : Config} (h : elOf c.variant.el = none) (n : Nat) : uopInstr c n = none := by
  simp [uopInstr, uopWord, h]

/-- When an instruction runs as SEQ's µop. -/
theorem seqRuns_iff (s : State) (i : Instr) :
    s.seqRuns i = true ↔ s.busy = true ∧ s.mode = .enable ∧ uopInstr s.cfg s.upc.toNat = some i := by
  simp [State.seqRuns, and_assoc]

/-- The instruction of the micro-program at upc runs as SEQ's µop. -/
theorem seqRuns_of_uop {s : State} {e : El} {n : Nat} {i : Instr} (hb : s.busy = true) (hm : s.mode = .enable)
    (hu : s.upc.toNat = n) (he : elOf s.cfg.variant.el = some e) (hi : (uopTable s.cfg.dsb1Scope e)[n]? = some i) :
    s.seqRuns i = true := by
  subst hu
  rw [seqRuns_iff, uopInstr_eq he]
  exact ⟨hb, hm, hi⟩

theorem elOf_cases {n : Nat} {e : El} (h : elOf n = some e) : (n = 2 ∧ e = .el2) ∨ (n = 3 ∧ e = .el3) := by
  unfold elOf at h
  split at h <;> simp_all

/-- The register set of a running µop instruction is VARIANT.EL's. -/
theorem elOf_of_uopInstr {c : Config} {n : Nat} {i : Instr} (h : uopInstr c n = some i) :
    ∃ e, elOf c.variant.el = some e ∧ (uopTable c.dsb1Scope e)[n]? = some i := by
  cases he : elOf c.variant.el with
  | none => rw [uopInstr_none he] at h; cases h
  | some e => exact ⟨e, rfl, by rw [← uopInstr_eq he]; exact h⟩

/-- Everything a register-writing µop can do (R163, R165, R166, R170). -/
theorem seqWrite_cases (u : Nat) (r : SysReg) (v : Word64) (s : State) :
    (minEl r ≤ s.curEl.val ∧ seqWrite u r v s = ((s.writeX 0 v).setSysReg r v).uopDone) ∨
    (s.curEl.val < minEl r ∧ seqWrite u r v s = s.raise .sysreg (BitVec.ofNat 64 u)) := by
  rcases Nat.lt_or_ge s.curEl.val (minEl r) with h | h
  · exact .inr ⟨h, by simp [seqWrite, sysRegWrite_fault (s := s.writeX 0 v) (by simpa using h)]⟩
  · exact .inl ⟨h, by simp [seqWrite, sysRegWrite_ok (s := s.writeX 0 v) (by simpa using h)]⟩

/-- Everything µop u1 can do (R164). -/
theorem seqReadMmfr0_cases (s : State) :
    (s.curEl.val < 1 ∧ seqReadMmfr0 s = s.raise .sysreg 1) ∨
    (1 ≤ s.curEl.val ∧ paRangeMax < paRange s.idAa64mmfr0El1 ∧
      seqReadMmfr0 s = ({ s.writeX 0 s.idAa64mmfr0El1 with tmp := s.idAa64mmfr0El1 }).raise .parange s.idAa64mmfr0El1) ∨
    (1 ≤ s.curEl.val ∧ paRange s.idAa64mmfr0El1 ≤ paRangeMax ∧
      seqReadMmfr0 s =
        ({ s.writeX 0 s.idAa64mmfr0El1 with
            tmp := s.idAa64mmfr0El1, ps := s.idAa64mmfr0El1.extractLsb' 0 3 }).uopDone) := by
  rcases Nat.lt_or_ge s.curEl.val 1 with h | h
  · exact .inl ⟨h, by simp only [seqReadMmfr0, sysRegRead_fault (r := .idAa64mmfr0El1) h]⟩
  · have hr : s.sysRegRead .idAa64mmfr0El1 = some s.idAa64mmfr0El1 := sysRegRead_ok (r := .idAa64mmfr0El1) h
    rcases Nat.lt_or_ge paRangeMax (paRange s.idAa64mmfr0El1) with hp | hp
    · exact .inr (.inl ⟨h, hp, by simp [seqReadMmfr0, hr, hp]⟩)
    · exact .inr (.inr ⟨h, hp, by simp [seqReadMmfr0, hr, Nat.not_lt.mpr hp]⟩)

/-- Everything µop u6 can do (R169). -/
theorem seqReadSctlr_cases (r : SysReg) (s : State) :
    (s.curEl.val < minEl r ∧ seqReadSctlr r s = s.raise .sysreg 6) ∨
    (minEl r ≤ s.curEl.val ∧
      seqReadSctlr r s = ({ s.writeX 0 (s.sysReg r) with tmp := s.sysReg r }).uopDone) := by
  rcases Nat.lt_or_ge s.curEl.val (minEl r) with h | h
  · exact .inl ⟨h, by simp [seqReadSctlr, sysRegRead_fault h]⟩
  · exact .inr ⟨h, by simp [seqReadSctlr, sysRegRead_ok h]⟩

/-- Everything an MSR outside SEQ can do (R95, R73). -/
theorem cpuMsr_cases (r : SysReg) (rt : Nat) (s : State) :
    (minEl r ≤ s.curEl.val ∧ cpuMsr r rt s = .next (s.setSysReg r (s.readX rt))) ∨
    (s.curEl.val < minEl r ∧ cpuMsr r rt s = .fault .undefinedInstruction) := by
  rcases Nat.lt_or_ge s.curEl.val (minEl r) with h | h
  · exact .inr ⟨h, by simp [cpuMsr, sysRegWrite_fault h]⟩
  · exact .inl ⟨h, by simp [cpuMsr, sysRegWrite_ok h]⟩

/-- Everything an MRS outside SEQ can do (R95, R73). -/
theorem cpuMrs_cases (r : SysReg) (rt : Nat) (s : State) :
    (minEl r ≤ s.curEl.val ∧ cpuMrs r rt s = .next (s.writeX rt (s.sysReg r))) ∨
    (s.curEl.val < minEl r ∧ cpuMrs r rt s = .fault .undefinedInstruction) := by
  rcases Nat.lt_or_ge s.curEl.val (minEl r) with h | h
  · exact .inr ⟨h, by simp [cpuMrs, sysRegRead_fault h]⟩
  · exact .inl ⟨h, by simp [cpuMrs, sysRegRead_ok h]⟩

end Sys2Proof.Machine
end

