-- ==== Sys2Proof/Laws/Step.lean ====
section
/-! SUPPORT. What a step is made of, and runs of steps (10_state.md R31). -/

namespace Sys2Proof.Machine

/-- With an empty schedule the block takes its own step. -/
theorem step_of_no_input {s : State} (h : s.inputs = []) : step s = blockStep s := by
  simp [step, machineStep, h]

/-- With an action to come, the step is that action. -/
theorem step_of_input {s : State} {a : Input} {rest : List Input} (h : s.inputs = a :: rest) :
    step s = takeInput a { s with inputs := rest } := by
  simp [step, machineStep, h]

/-- An idle block's own step (60_exceptions.md R216). -/
theorem blockStep_idle {s : State} (h : s.busy = false) : blockStep s = .next s := by
  simp [blockStep, h]

/-- A running BUILD's own step. -/
theorem blockStep_build {s : State} (h : s.busy = true) (hm : s.mode = .build) : blockStep s = initStep s := by
  simp [blockStep, h, hm]

/-- A running ENABLE's own step. -/
theorem blockStep_enable {s : State} (h : s.busy = true) (hm : s.mode = .enable) : blockStep s = seqStep s := by
  simp [blockStep, h, hm]

/-- SEQ runs the instruction of its micro-program (42_sequencer.md R162). -/
theorem seqStep_of_uop {s : State} {i : Instr} (h : uopInstr s.cfg s.upc.toNat = some i) : seqStep s = exec i s := by
  simp [seqStep, h]

/-- The state a step acts on: the action it takes is gone from the schedule. -/
inductive Taken (s : State) : State → Prop where
  | own (h : s.inputs = []) : Taken s s
  | action (a : Input) (rest : List Input) (h : s.inputs = a :: rest) : Taken s { s with inputs := rest }

/-- Everything a step that answers a next state can do. -/
inductive StepCase (s s0 t : State) : Prop where
  /-- A read, a write of STATUS, or an idle block (R31, R32). -/
  | nothing (h : t = s0)
  /-- A block reset (70_reset_and_hazards.md R230). -/
  | reset (hi : s.inputs.head? = some .reset) (h : t = s0.blockReset)
  /-- A word at CMD that is no command (60_exceptions.md R202). -/
  | badWord (w : Word32) (h : t = acceptBadWord w s0)
  /-- A command word at CMD (R202). -/
  | command (w : Word32) (i : Instr) (hd : decodeCommand w = .ok i) (h : exec i s0 = .next t)
  /-- A word at the CPU (30_encoding.md R98). -/
  | cpu (w : Word32) (i : Instr) (hi : s.inputs.head? = some (.cpu w)) (hd : decodeA64 w = .ok i)
      (h : exec i s0 = .next t)
  /-- A write of INIT (41_initializer.md R145). -/
  | build (hb : s0.busy = true) (hm : s0.mode = .build) (h : initStep s0 = .next t)
  /-- A µop of SEQ (42_sequencer.md R162). -/
  | uop (i : Instr) (hr : s0.seqRuns i = true) (h : exec i s0 = .next t)

/-- The block's own step, by cases. -/
theorem blockStep_cases {s s0 t : State} (h : blockStep s0 = .next t) : StepCase s s0 t := by
  unfold blockStep at h
  split_ifs at h with hb
  · cases hm : s0.mode with
    | none => simp [hm] at h
    | build => exact .build hb hm (by simpa [hm] using h)
    | enable =>
      simp only [hm, seqStep] at h
      split at h
      next i hi => exact .uop i (by simp [State.seqRuns, hb, hm, hi]) h
      next => cases h
  · cases h; exact .nothing rfl

/-- Every step that answers a next state, by cases. -/
theorem step_cases {s t : State} (h : step s = .next t) : ∃ s0, Taken s s0 ∧ StepCase s s0 t := by
  cases hi : s.inputs with
  | nil => rw [step_of_no_input hi] at h; exact ⟨s, .own hi, blockStep_cases h⟩
  | cons a rest =>
    rw [step_of_input hi] at h
    refine ⟨_, .action a rest hi, ?_⟩
    cases a with
    | write w =>
      simp only [takeInput, hostWrite] at h
      split at h
      next i hd => exact .command w i hd h
      next => cases h; exact .badWord w rfl
    | read o => cases h; exact .nothing rfl
    | writeStatus w => cases h; exact .nothing rfl
    | wait => exact blockStep_cases h
    | reset => cases h; exact .reset (by simp [hi]) rfl
    | cpu w =>
      simp only [takeInput, cpuWord] at h
      split at h
      next i hd => exact .cpu w i (by simp [hi]) hd h
      next => cases h

/-- A run of n + 1 steps whose first one answers a next state. -/
theorem run_succ_next {s t : State} (n : Nat) (h : step s = .next t) : core.run (n + 1) s = core.run n t := by
  have hc : core.step s = .next t := h
  simp only [Host.Core.run, hc]

/-- A run of no step. -/
theorem run_zero (s : State) : core.run 0 s = .next s := rfl

end Sys2Proof.Machine
end

