-- ==== Sys2Proof/Tests/Slice0.lean ====
section
/-! SUPPORT. Tests whose expected values come from spec/95_test_vectors.md and 30_encoding.md, the smoke test of
WellFormed, and a witness for the hypotheses of every obligation that has some. -/

namespace Sys2Proof.Tests

open Machine Claims

/-! ## WellFormed: each check refuses an ill-formed term and accepts its boundary -/

theorem test_slot_too_large : ¬(Instr.encTable 8192).WellFormed ∧ (Instr.encTable 8191).WellFormed := by decide
theorem test_page_too_large : ¬(Instr.encPage 131072).WellFormed ∧ (Instr.encPage 131071).WellFormed := by decide
theorem test_register_too_large : ¬(Instr.msrTcrEl3 32).WellFormed ∧ (Instr.msrTcrEl3 31).WellFormed := by decide
theorem test_register_too_large_mrs :
    ¬(Instr.mrsIdAa64mmfr0El1 32).WellFormed ∧ ¬(Instr.mrsSctlrEl2 32).WellFormed ∧ Instr.isb.WellFormed := by decide

/-! ## Decoding: words of 30_encoding.md R92 to R98, one for every constructor at least -/

theorem test_decode_build : decodeCommand 0x10000000 = .ok .build := by decide
theorem test_decode_enable : decodeCommand 0x20000000 = .ok .enable := by decide
theorem test_decode_enc_table : decodeCommand 0x30001FFF = .ok (.encTable 8191) := by decide
theorem test_decode_enc_page : decodeCommand 0x4001FFFF = .ok (.encPage 0x1FFFF) := by decide
/-- 95_test_vectors.md X1, X2, X3, T7, E18. -/
theorem test_decode_reserved :
    decodeCommand 0 = .error (.reservedOp 0) ∧ decodeCommand 0x10000001 = .error (.reservedBits 1) ∧
    decodeCommand 0x50000000 = .error (.reservedOp 5) ∧ decodeCommand 0x30002000 = .error (.reservedBits 3) ∧
    decodeCommand 0x40020000 = .error (.reservedBits 4) := by decide
/-- MSR MAIR_EL3, X0: 1101010100 0 1 1 110 1010 0010 000 00000 (R95, R96). -/
theorem test_decode_mair_el3 : decodeA64 0b11010101000111101010001000000000 = .ok (.msrMairEl3 0) := by decide
theorem test_decode_tcr_el3 : decodeA64 0xD51E2040 = .ok (.msrTcrEl3 0) := by decide
theorem test_decode_ttbr0_el3 : decodeA64 0xD51E2000 = .ok (.msrTtbr0El3 0) := by decide
theorem test_decode_sctlr_el3 : decodeA64 0xD51E1000 = .ok (.msrSctlrEl3 0) := by decide
theorem test_decode_read_sctlr_el3 : decodeA64 0xD53E1000 = .ok (.mrsSctlrEl3 0) := by decide
theorem test_decode_mair_el2 : decodeA64 0xD51CA200 = .ok (.msrMairEl2 0) := by decide
theorem test_decode_tcr_el2 : decodeA64 0xD51C2040 = .ok (.msrTcrEl2 0) := by decide
theorem test_decode_ttbr0_el2 : decodeA64 0xD51C2000 = .ok (.msrTtbr0El2 0) := by decide
theorem test_decode_sctlr_el2 : decodeA64 0xD51C1000 = .ok (.msrSctlrEl2 0) := by decide
theorem test_decode_read_sctlr_el2 : decodeA64 0xD53C1000 = .ok (.mrsSctlrEl2 0) := by decide
/-- MRS X30, ID_AA64MMFR0_EL1: the Rt field of R95. -/
theorem test_decode_read_mmfr0 : decodeA64 (0xD5380700 + 30) = .ok (.mrsIdAa64mmfr0El1 30) := by decide
theorem test_decode_dsb_sy : decodeA64 0xD5033F9F = .ok .dsbSy := by decide
theorem test_decode_dsb_ish : decodeA64 0xD5033B9F = .ok .dsbIsh := by decide
theorem test_decode_isb : decodeA64 0xD5033FDF = .ok .isb := by decide
/-- MRS X0, MAIR_EL3, MSR ID_AA64MMFR0_EL1, X0 and MSR SCTLR_EL1, X0 are no rows of R96. -/
theorem test_decode_no_row :
    decodeA64 0xD53EA200 = .error .notA64Sys ∧ decodeA64 0xD5180700 = .error .notA64Sys ∧
    decodeA64 0xD5181000 = .error .notA64Sys := by decide
theorem test_decode_table_word :
    decodeTableWord 32 0x40003F20 = some (.encPage 0x3F20) ∧ decodeTableWord 32 0xD51C2000 = some (.msrTtbr0El2 0) := by
  decide
theorem test_encode :
    encode (.encPage 0x3F20) = 0x40003F20 ∧ encode (.msrMairEl3 0) = 0xD51EA200 ∧ encode .dsbIsh = 0xD5033B9F := by
  decide

/-! ## States for one step -/

/-- The state after reset with one action to come. -/
def before (a : Input) : State := { State.reset with inputs := [a] }

/-- The state after reset with another configuration, exception level and MMFR0, as 95_test_vectors.md gives them. -/
def platform (v : Variant) (el : Fin 4) (mmfr0 : Word64) : State :=
  { State.reset with cfg := { Config.common with variant := v }, curEl := el, idAa64mmfr0El1 := mmfr0 }

/-- A running BUILD before write i. -/
def building (i : Nat) : State := { State.reset with busy := true, mode := .build, ipc := BitVec.ofNat 17 i }

/-- A running ENABLE before µop n. -/
def enabling (s : State) (n : Nat) : State :=
  { s with busy := true, mode := .enable, built := true, ipc := 81920, upc := BitVec.ofNat 4 n }

/-- The variant OLD platform of 95_test_vectors.md. -/
def oldPlatform : State := platform Variant.old 3 0x1122

/-- The variant NEW platform of 95_test_vectors.md P1b. -/
def newPlatform : State := platform Variant.new 2 5

/-- STATUS, ERRINFO and ENC_OUT of a next state. -/
def outputs : Host.Outcome State Fault Refusal → Option (Word32 × Word64 × Word64)
  | .next t => some (t.status, t.errinfo, t.encOut)
  | .fault _ => none
  | .refused _ => none

/-- A value read from a next state. -/
def after {α : Type} (f : State → α) : Host.Outcome State Fault Refusal → Option α
  | .next t => some (f t)
  | .fault _ => none
  | .refused _ => none

/-! ## Commands (95_test_vectors.md L2.1, L2.2, L2.5) -/

theorem test_build : outputs (step (before (.write 0x10000000))) = some (0x1001, 0, 0) := by decide
/-- X4. -/
theorem test_enable_order : outputs (step (before (.write 0x20000000))) = some (0x48, 0x20000000, 0) := by decide
/-- L2.4: STATUS after acceptance. -/
theorem test_enable :
    outputs (step { before (.write 0x20000000) with built := true }) = some (0x2003, 0, 0) := by decide
/-- T4. -/
theorem test_enc_table_last : outputs (step (before (.write 0x30000008))) = some (0, 0, 0x190003) := by decide
/-- T5, from a state whose enc_out is not 0. -/
theorem test_enc_table_zero :
    outputs (step { before (.write 0x30000009) with encOut := 7 }) = some (0, 0, 0) := by decide
/-- E7. -/
theorem test_enc_page_device :
    outputs (step (before (.write 0x40003F00))) = some (0, 0, 0x006000003F000667) := by decide
/-- E12. -/
theorem test_enc_page_new :
    outputs (step { newPlatform with inputs := [.write 0x4000FC00] }) = some (0, 0, 0x00600000FC000647) := by decide
/-- E10 and E11. -/
theorem test_enc_page_range :
    outputs (step (before (.write 0x40011FFF))) = some (0, 0, 0x000000011FFF0743) ∧
    outputs (step (before (.write 0x40012000))) = some (0x78, 0x12000, 0) := by decide
/-- X2. -/
theorem test_badcmd : outputs (step (before (.write 0x10000001))) = some (0x18, 0x10000001, 0) := by decide
/-- X9. -/
theorem test_busy :
    outputs (step { enabling oldPlatform 4 with inputs := [.write 0x30000000] }) = some (0x42A, 0x30000000, 0) := by
  decide
/-- X5. -/
theorem test_reentry :
    outputs (step { before (.write 0x20000000) with built := true, enabled := true, upc := 10 }) =
      some (0xA3E, 0x20000000, 0) := by decide
/-- X10, X11 and X12; X12 at the address its note describes, the last one R66 allows (log entry 12). -/
theorem test_table_base :
    outputs (step { before (.write 0x10000000) with cfg := { Config.common with tableBase := 0x108000 } }) =
      some (0x58, 0x108000, 0) ∧
    outputs (step { before (.write 0x10000000) with cfg := { Config.common with tableBase := 0xFFFFFFFB0000 } }) =
      some (0x68, 1, 0) ∧
    outputs (step { before (.write 0x10000000) with cfg := { Config.common with tableBase := 0xFFFFFFF60000 } }) =
      some (0x1001, 0, 0) := by decide
/-- X13 and X14. -/
theorem test_variant :
    outputs (step { platform { Variant.old with devLo := 0x4000, devHi := 0x3F00 } 3 0 with
      inputs := [.write 0x40000000] }) = some (0x68, 2, 0) ∧
    outputs (step { platform { Variant.old with el := 1 } 3 0 with inputs := [.write 0x30000000] }) =
      some (0x68, 3, 0) := by decide
/-- P8: a block reset clears the error (70_reset_and_hazards.md R230). -/
theorem test_reset :
    outputs (step { before .reset with err := true, errcode := .busy, errinfo := 0x40000000 }) = some (0, 0, 0) := by
  decide

/-! ## INIT (L2.3) -/

/-- Write 0, at 0x100000, and its byte order. -/
theorem test_init_first :
    after (fun t => (t.readWord 0x100000, t.readByte 0x100000, t.readByte 0x100002)) (step (building 0)) =
      some (some 0x110003, some 0x03, some 0x11) := by decide
/-- Write 24320, the first device page. -/
theorem test_init_device :
    after (fun t => t.readWord 0x12F800) (step (building 24320)) = some (some 0x006000003F000667) := by decide
/-- Write 81919, after which STATUS is 2. -/
theorem test_init_last :
    after (fun t => (t.readWord 0x19FFF8, t.status)) (step (building 81919)) = some (some 0x000000011FFF0743, 2) := by
  decide
/-- X19. -/
theorem test_init_mem :
    outputs (step { building 8192 with memPort := [.reject] }) = some (0xA8, 0x110000, 0) := by decide

/-! ## SEQ (L2.4, P1, P1b) -/

theorem test_u0 : after (fun t => (t.mairEl3, t.status)) (step (enabling oldPlatform 0)) = some (0x4404FF, 0x2103) := by
  decide
theorem test_u0_el2 : after (fun t => (t.mairEl2, t.mairEl3)) (step (enabling newPlatform 0)) = some (0x4404FF, 0) := by
  decide
/-- X20. -/
theorem test_u0_sysreg : outputs (step (enabling (platform Variant.old 2 0x1122) 0)) = some (0x9A, 0, 0) := by decide
theorem test_u1 : after (fun t => (t.ps, t.tmp)) (step (enabling oldPlatform 1)) = some (2, 0x1122) := by decide
/-- P5. -/
theorem test_u1_parange : outputs (step (enabling (platform Variant.old 3 7) 1)) = some (0x18A, 7, 0) := by decide
theorem test_u2 :
    after (fun t => t.tcrEl3) (step { enabling oldPlatform 2 with ps := 2 }) = some 0x80827520 := by decide
theorem test_u2_el2 :
    after (fun t => t.tcrEl2) (step { enabling newPlatform 2 with ps := 5 }) = some 0x80857520 := by decide
theorem test_u3 : after (fun t => t.ttbr0El3) (step (enabling oldPlatform 3)) = some 0x100001 := by decide
theorem test_u3_el2 : after (fun t => t.ttbr0El2) (step (enabling newPlatform 3)) = some 0x100001 := by decide
theorem test_u4 :
    after (fun t => (t.walkerSync, t.status)) (step { enabling oldPlatform 4 with walkerSync := false }) =
      some (true, 0x2503) := by decide
theorem test_u4_ish :
    after (fun t => (t.walkerSync, t.status))
      (step { enabling oldPlatform 4 with walkerSync := false, cfg := { Config.common with dsb1Scope := .ish } }) =
      some (true, 0x2503) := by decide
theorem test_u5 :
    after (fun t => (t.ctx.mair, t.ctx.ctl.wxn)) (step { enabling oldPlatform 5 with mairEl3 := 9, sctlrEl3 := 0x30CD0830 }) =
      some (9, true) := by decide
theorem test_u6 : after (fun t => t.tmp) (step (enabling oldPlatform 6)) = some 0x30C50830 := by decide
theorem test_u6_el2 :
    after (fun t => t.tmp) (step { enabling newPlatform 6 with sctlrEl2 := 0x32CD0832 }) = some 0x32CD0832 := by decide
theorem test_u7 :
    after (fun t => t.sctlrEl3) (step { enabling oldPlatform 7 with tmp := 0x32CD0832 }) = some 0x30C51835 := by decide
theorem test_u7_el2 :
    after (fun t => t.sctlrEl2) (step { enabling newPlatform 7 with tmp := 0xFFFFFFFFFFFFFFFF }) =
      some 0xFFFFFFFFFDF7FFFD := by decide
theorem test_u9 :
    after (fun t => (t.status, t.ctx.mmuOn)) (step { enabling oldPlatform 9 with sctlrEl3 := 0x30C51835 }) =
      some (0xA06, true) := by decide

/-! ## Words the CPU executes outside SEQ (30_encoding.md R95) -/

/-- MSR TCR_EL3, X5 and MSR TCR_EL2, XZR. -/
theorem test_cpu_msr :
    after (fun t => t.tcrEl3) (step ({ before (.cpu 0xD51E2045) with inputs := [.cpu 0xD51E2045] }.writeX 5 77)) = some 77 ∧
    after (fun t => t.tcrEl2) (step { before (.cpu 0xD51C205F) with tcrEl2 := 77 }) = some 0 := by decide
/-- MRS X3, SCTLR_EL3. -/
theorem test_cpu_mrs : after (fun t => (t.readX 3, t.tmp)) (step (before (.cpu 0xD53E1003))) = some (0x30C50830, 0) := by
  decide
/-- An MSR of an EL3 register at EL2 (60_exceptions.md R209). -/
theorem test_cpu_undefined :
    step { before (.cpu 0xD51EA200) with curEl := 2 } = .fault .undefinedInstruction := by rfl
/-- NOP is no row of the table. -/
theorem test_cpu_no_row : step (before (.cpu 0xD503201F)) = .refused (.notA64Sys 0xD503201F) := by rfl
/-- The placing of a word: the next step runs it. -/
theorem test_place :
    after (fun t => t.encOut) (step (State.reset.withFetchWord 32 0x30000000)) = some 0x110003 ∧
    after (fun t => t.mairEl2) (step ({ State.reset with mairEl2 := 5 }.withFetchWord 32 0xD51CA200)) = some 0 := by
  decide

/-! ## Witnesses: for every obligation with hypotheses, states and operands that meet them -/

theorem legal_common : ConfigLegal Config.common := by unfold ConfigLegal; decide
theorem legal_new : ConfigLegal newPlatform.cfg := by unfold ConfigLegal; decide

/-- The state after reset with a completed BUILD's control registers. -/
def builtState : State := { State.reset with built := true, ipc := 81920 }

/-- The state after reset with an error recorded. -/
def errorState : State := { State.reset with err := true, errcode := .range, errinfo := 0x12000 }

/-- The control registers of a running BUILD agree (10_state.md R22 to R28). -/
theorem control_of_building (i : Nat) (h : i < 81920) : ControlInv (building i) where
  busy_iff := ⟨fun _ h => Mode.noConfusion h, fun _ => rfl⟩
  err_stops := fun h => Bool.noConfusion h
  err_none := fun _ => ⟨rfl, rfl⟩
  err_some := fun h => Bool.noConfusion h
  ipc_le := by simp only [building, totalEntries, BitVec.toNat_ofNat]; omega
  upc_le := Nat.zero_le 10
  building := fun _ => ⟨rfl, rfl, by simp only [building, totalEntries, BitVec.toNat_ofNat]; omega, legal_common⟩
  enabling := fun h => Mode.noConfusion h
  built_all := fun h => Bool.noConfusion h
  enabled_all := fun h => Bool.noConfusion h

theorem control_reset : ControlInv State.reset where
  busy_iff := by decide
  err_stops := fun _ => rfl
  err_none := fun _ => ⟨rfl, rfl⟩
  err_some := fun h => Bool.noConfusion h
  ipc_le := by decide
  upc_le := Nat.zero_le 10
  building := fun h => Mode.noConfusion h
  enabling := fun h => Mode.noConfusion h
  built_all := fun h => Bool.noConfusion h
  enabled_all := fun h => Bool.noConfusion h

theorem control_built : ControlInv builtState where
  busy_iff := by decide
  err_stops := fun _ => rfl
  err_none := fun _ => ⟨rfl, rfl⟩
  err_some := fun h => Bool.noConfusion h
  ipc_le := by decide
  upc_le := Nat.zero_le 10
  building := fun h => Mode.noConfusion h
  enabling := fun h => Mode.noConfusion h
  built_all := fun _ => ⟨by decide, legal_common⟩
  enabled_all := fun h => Bool.noConfusion h

theorem control_error : ControlInv errorState where
  busy_iff := by decide
  err_stops := fun _ => rfl
  err_none := fun h => Bool.noConfusion h
  err_some := by decide
  ipc_le := by decide
  upc_le := Nat.zero_le 10
  building := fun h => Mode.noConfusion h
  enabling := fun h => Mode.noConfusion h
  built_all := fun h => Bool.noConfusion h
  enabled_all := fun h => Bool.noConfusion h

/-- The control registers of a running ENABLE agree. -/
theorem control_of_enabling (n : Nat) (h : n < 10) : ControlInv (enabling oldPlatform n) where
  busy_iff := ⟨fun _ h => Mode.noConfusion h, fun _ => rfl⟩
  err_stops := fun h => Bool.noConfusion h
  err_none := fun _ => ⟨rfl, rfl⟩
  err_some := fun h => Bool.noConfusion h
  ipc_le := control_built.ipc_le
  upc_le := by simp only [enabling, BitVec.toNat_ofNat]; omega
  building := fun h => Mode.noConfusion h
  enabling := fun _ => ⟨rfl, rfl, by simp only [enabling, BitVec.toNat_ofNat]; omega⟩
  built_all := fun _ => control_built.built_all rfl
  enabled_all := fun h => Bool.noConfusion h

/-! ### Encoding -/

theorem test_witness_DecodeOfEncodeIsTheInstruction :
    (Instr.encTable 8191).WellFormed ∧ (Instr.encPage 131071).WellFormed ∧ (Instr.msrSctlrEl2 31).WellFormed ∧
      Instr.dsbIsh.WellFormed := by decide
theorem test_witness_EncodeOfDecodeIsTheWord :
    decode 0x4001FFFF = .ok (.encPage 0x1FFFF) ∧ decode 0xD53E101F = .ok (.mrsSctlrEl3 31) ∧
      decode 0xD5033B9F = .ok .dsbIsh := by decide
theorem test_witness_CommandRowsByMatchAndMask :
    ((0x30001FFF : Word32) &&& 0xFFFFE000 = 0x30000000) ∧ ((0x4001FFFF : Word32) &&& 0xFFFE0000 = 0x40000000) ∧
    ((0x30002000 : Word32) ≠ 0x10000000 ∧ (0x30002000 : Word32) ≠ 0x20000000 ∧
      (0x30002000 : Word32) &&& 0xFFFFE000 ≠ 0x30000000 ∧ (0x30002000 : Word32) &&& 0xFFFE0000 ≠ 0x40000000) ∧
    (before (.write 0x30002000)).inputs = [.write 0x30002000] ∧ Idle (before (.write 0x30002000)) :=
  ⟨by decide, by decide, by decide, rfl, rfl, rfl⟩
theorem test_witness_NoWordIsInBothFormats : decodeA64 0xD5380700 = .ok (.mrsIdAa64mmfr0El1 0) := by decide
theorem test_witness_MicroProgramIsTheWordMap : Config.common.variant.el = 3 ∧ newPlatform.cfg.variant.el = 2 := by decide

/-! ### The step, reset and outputs -/

theorem test_witness_StepRunsTheDecodedInstruction :
    (before (.write 0x10000000)).inputs = [.write 0x10000000] ∧ decodeCommand 0x10000000 = .ok .build ∧
    (before (.cpu 0xD5033FDF)).inputs = [.cpu 0xD5033FDF] ∧ decodeA64 0xD5033FDF = .ok .isb ∧
    ((enabling oldPlatform 9).inputs = [] ∧ (enabling oldPlatform 9).busy = true ∧
      (enabling oldPlatform 9).mode = .enable ∧
      uopWord (enabling oldPlatform 9).cfg (enabling oldPlatform 9).upc.toNat = some 0xD5033FDF) ∧
    { enabling oldPlatform 0 with inputs := [.wait] }.inputs = [.wait] ∧
    uopWord oldPlatform.cfg 0 = some 0xD51EA200 ∧ decodeA64 0xD51EA200 = .ok (.msrMairEl3 0) := by decide
theorem test_witness_IdleStepsAndReadsChangeNothing :
    State.reset.inputs = [] ∧ State.reset.busy = false ∧ (before .wait).inputs = [.wait] ∧ (before .wait).busy = false ∧
    (before (.read .errinfo)).inputs = [.read .errinfo] ∧ (before (.writeStatus 5)).inputs = [.writeStatus 5] := by decide
theorem test_witness_BlockResetClearsTheBlockAndNothingElse :
    { errorState with inputs := [.reset] }.inputs = [.reset] := by decide
theorem test_witness_StatusFields : { errorState with inputs := [.writeStatus 0] }.inputs = [.writeStatus 0] := by decide

theorem test_witness_OutputsShowTheirRegisters :
    ControlInv State.reset ∧ State.reset.err = false ∧ errorState.output .errinfo = 0x12000 := ⟨control_reset, rfl, rfl⟩

/-! ### Acceptance and errors -/

theorem test_witness_HostWriteRunsTheAcceptanceStep : (before (.write 0xF0000000)).inputs = [.write 0xF0000000] := by
  decide
theorem test_witness_ErrorsAreStickyAndStopTheBlock :
    ({ errorState with inputs := [.write 0x10000000] }.err = true ∧
      { errorState with inputs := [.write 0x10000000] }.inputs = [.write 0x10000000]) ∧
    (ControlInv errorState ∧ errorState.err = true ∧ errorState.inputs = []) ∧
    errorState.inputs.head? ≠ some .reset ∧ step errorState = .next errorState :=
  ⟨⟨rfl, rfl⟩, ⟨control_error, rfl, rfl⟩, by decide, rfl⟩
theorem test_witness_BuildIsAccepted :
    Idle State.reset ∧ State.reset.enabled = false ∧ ConfigLegal State.reset.cfg := ⟨⟨rfl, rfl⟩, rfl, legal_common⟩
theorem test_witness_EnableIsAcceptedOnceBuilt :
    (Idle builtState ∧ builtState.enabled = false ∧ builtState.built = true ∧ ConfigLegal builtState.cfg) ∧
    Idle State.reset ∧ State.reset.enabled = false ∧ State.reset.built = false :=
  ⟨⟨⟨rfl, rfl⟩, rfl, rfl, legal_common⟩, ⟨rfl, rfl⟩, rfl, rfl⟩
theorem test_witness_EncTableResult :
    Idle State.reset ∧ ConfigLegal State.reset.cfg ∧ 8 < 8192 ∧ 9 < 8192 ∧ 8191 < 8192 :=
  ⟨⟨rfl, rfl⟩, legal_common, by decide, by decide, by decide⟩
theorem test_witness_EncPageResult :
    Idle State.reset ∧ ConfigLegal State.reset.cfg ∧
    (0x3F00 < 73728 ∧ State.reset.cfg.variant.devLo ≤ 0x3F00 ∧ 0x3F00 < State.reset.cfg.variant.devHi) ∧
    (0x3FFF < 73728 ∧ State.reset.cfg.variant.devLo ≤ 0x3FFF ∧ 0x3FFF < State.reset.cfg.variant.devHi) ∧
    ¬(State.reset.cfg.variant.devLo ≤ 0x3EFF ∧ 0x3EFF < State.reset.cfg.variant.devHi) ∧
    ¬(State.reset.cfg.variant.devLo ≤ 0x4000 ∧ 0x4000 < State.reset.cfg.variant.devHi) ∧
    73727 < 73728 ∧ 73728 ≤ 131071 ∧ 131071 < 131072 :=
  ⟨⟨rfl, rfl⟩, legal_common, by decide, by decide, by decide, by decide, by decide, by decide, by decide⟩
theorem test_witness_EnableIsOneShot :
    Idle { builtState with enabled := true, upc := 10 } ∧ { builtState with enabled := true, upc := 10 }.enabled = true ∧
    { builtState with enabled := true, upc := 10 }.inputs.head? ≠ some .reset ∧
    step { builtState with enabled := true, upc := 10 } = .next { builtState with enabled := true, upc := 10 } :=
  ⟨⟨rfl, rfl⟩, rfl, by decide, rfl⟩

/-! ### ENC -/

theorem test_witness_TableDescriptorsFollowTheFormat : ConfigLegal Config.common ∧ 0 < 9 ∧ 8 < 9 :=
  ⟨legal_common, by decide, by decide⟩
theorem test_witness_PageDescriptorsFollowTheFormat : 0 < 73728 ∧ 73727 < 73728 := by decide
theorem test_witness_LeafEntriesAreIdentityMappings : 0 < 73728 ∧ 73727 < 73728 := by decide
theorem test_witness_ExecuteNeverExactlyOnDevicePages :
    0x3F00 < 73728 ∧ classOf Config.common 0x3F00 = .dev ∧ classOf Config.common 0x3EFF = .ram := by decide
theorem test_witness_LeafTablesAreDistinct : ConfigLegal Config.common ∧ 0 < 8 ∧ 8 < 9 :=
  ⟨legal_common, by decide, by decide⟩
theorem test_witness_FieldsEncNeverSets : ConfigLegal Config.common ∧ 8191 < 8192 ∧ 73727 < 73728 :=
  ⟨legal_common, by decide, by decide⟩

/-! ### INIT -/

theorem test_witness_InitStepWritesOneEntry :
    ((building 0).inputs = [] ∧ (building 0).busy = true ∧ (building 0).mode = .build ∧ (building 0).err = false ∧
      (building 0).ipc.toNat < 81920 ∧ (building 0).memPort.head? ≠ some .reject ∧
      (building 0).ipc.toNat + 1 ≠ 81920) ∧
    ((building 81919).ipc.toNat < 81920 ∧ (building 81919).ipc.toNat + 1 = 81920) ∧
    { building 0 with memPort := [.reject] }.memPort.head? = some .reject ∧ ConfigLegal (building 0).cfg :=
  ⟨by decide, by decide, rfl, legal_common⟩
theorem test_witness_DescriptorsAreStoredLittleEndian :
    (building 0).inputs = [] ∧ (building 0).busy = true ∧ (building 0).mode = .build ∧ ConfigLegal (building 0).cfg ∧
    (building 0).memPort.head? ≠ some .reject ∧ (after (fun _ => true) (step (building 0)) = some true) ∧ 7 < 8 :=
  ⟨rfl, rfl, rfl, legal_common, by decide, by decide, by decide⟩
theorem test_witness_BuildCompletesWithTheTables :
    Idle (before (.write 0x10000000)) ∧ (before (.write 0x10000000)).enabled = false ∧
    ConfigLegal (before (.write 0x10000000)).cfg ∧ OneCommand (before (.write 0x10000000)) 0x10000000 ∧
    ∀ a ∈ (before (.write 0x10000000)).memPort, a = .accept :=
  ⟨⟨rfl, rfl⟩, rfl, legal_common, rfl, by decide⟩

/-- The memory after n writes of a BUILD from empty memory. -/
@[irreducible] def writtenMem (c : Config) (n : Nat) : List Host.Cell :=
  (List.range n).foldl (fun m i => memWriteBytes m (entryAddr c i) (bytesOfWord (entry c i))) []

theorem writtenMem_zero (c : Config) : writtenMem c 0 = [] := by unfold writtenMem; rfl

theorem writtenMem_succ (c : Config) (n : Nat) :
    writtenMem c (n + 1) = memWriteBytes (writtenMem c n) (entryAddr c n) (bytesOfWord (entry c n)) := by
  unfold writtenMem
  rw [List.range_succ, List.foldl_append]
  rfl

theorem writtenMem_holds (c : Config) (n i : Nat) (h : i < n) :
    memReadWord (writtenMem c n) (entryAddr c i) = some (entry c i) := by
  induction n with
  | zero => omega
  | succ n ih =>
    rw [writtenMem_succ]
    by_cases hi : i = n
    · rw [hi]; exact memReadWord_memWriteBytes_same _ _ _
    · rw [memReadWord_memWriteBytes_other _ _ (by simp only [entryAddr]; omega)]
      exact ih (by omega)

theorem writtenMem_wf (c : Config) (n : Nat) (h : c.tableBase.toNat + 8 * n ≤ 2 ^ 64) : memWf (writtenMem c n) = true := by
  induction n with
  | zero => rw [writtenMem_zero]; rfl
  | succ n ih =>
    rw [writtenMem_succ]
    exact memWf_memWriteBytes _ (ih (by omega)) (by simp only [length_bytesOfWord, entryAddr]; omega)

/-- The state after a BUILD whose tables are in memory. -/
def tablesState : State := { builtState with mem := writtenMem Config.common totalEntries }

theorem entries_tablesState : EntriesHeld tablesState totalEntries :=
  fun i h => writtenMem_holds Config.common totalEntries i h

theorem tables_tables : TableInv tablesState :=
  ⟨writtenMem_wf Config.common totalEntries (by decide), fun h => Mode.noConfusion h, fun _ => entries_tablesState⟩

/-- The same with a byte outside the region. -/
def outsideMem : List Host.Cell := memWrite (writtenMem Config.common totalEntries) 0x20000 7

theorem tables_outside : TableInv { builtState with mem := outsideMem } where
  memWf := memWf_memWrite _ (writtenMem_wf Config.common totalEntries (by decide)) (by decide)
  building := fun h => Mode.noConfusion h
  built := fun _ => entriesHeld_congr (s := tablesState) rfl (fun i _ => memReadWord_congr fun k _ =>
    memRead_memWrite_other _ _ (by
      have hb : (Config.common.tableBase).toNat = 0x100000 := rfl
      show entryAddr Config.common i + k ≠ 0x20000
      simp only [entryAddr, hb]; omega)) entries_tablesState

theorem test_witness_TablesAreAFunctionOfTheConfiguration :
    (ControlInv tablesState ∧ TableInv tablesState ∧ tablesState.built = true) ∧
    (ControlInv { builtState with mem := outsideMem } ∧ TableInv { builtState with mem := outsideMem } ∧
      { builtState with mem := outsideMem }.built = true) ∧
    { builtState with mem := outsideMem }.cfg = tablesState.cfg ∧
    tablesState.cfg.tableBase.toNat ≤ 0x19FFFF ∧ 0x19FFFF < tablesState.cfg.tableBase.toNat + 0xA0000 :=
  ⟨⟨controlInv_mem control_built _, tables_tables, rfl⟩, ⟨controlInv_mem control_built _, tables_outside, rfl⟩, rfl,
    by decide, by decide⟩

/-! ### SEQ -/

/-- A running ENABLE of either variant stands before every µop. -/
theorem at_old (n : Nat) (h : n < 10) (el : Fin 4) (m : Word64) :
    AtMicroOp (enabling (platform Variant.old el m) n) .el3 n :=
  ⟨rfl, rfl, rfl, by simp [enabling]; omega, rfl⟩
theorem at_new (n : Nat) (h : n < 10) (el : Fin 4) (m : Word64) :
    AtMicroOp (enabling (platform Variant.new el m) n) .el2 n :=
  ⟨rfl, rfl, rfl, by simp [enabling]; omega, rfl⟩

/-- States before µop n whose level may write the registers, and whose level is below them, for both variants. -/
def BothLevels (n : Nat) : Prop :=
  (AtMicroOp (enabling (platform Variant.old 3 0) n) .el3 n ∧ 3 ≤ (enabling (platform Variant.old 3 0) n).curEl.val) ∧
  (AtMicroOp (enabling (platform Variant.old 2 0) n) .el3 n ∧ (enabling (platform Variant.old 2 0) n).curEl.val < 3) ∧
  (AtMicroOp (enabling (platform Variant.new 2 0) n) .el2 n ∧ 2 ≤ (enabling (platform Variant.new 2 0) n).curEl.val) ∧
  (AtMicroOp (enabling (platform Variant.new 1 0) n) .el2 n ∧ (enabling (platform Variant.new 1 0) n).curEl.val < 2)

theorem bothLevels (n : Nat) (h : n < 10) : BothLevels n :=
  ⟨⟨at_old n h 3 0, Nat.le_refl 3⟩, ⟨at_old n h 2 0, Nat.le_refl 3⟩, ⟨at_new n h 2 0, Nat.le_refl 2⟩,
    at_new n h 1 0, Nat.le_refl 2⟩

theorem test_witness_MicroOpWriteMair : BothLevels 0 := bothLevels 0 (by decide)
theorem test_witness_MicroOpReadFeatureRegister :
    (AtMicroOp (enabling (platform Variant.new 0 0) 1) .el2 1 ∧ (platform Variant.new 0 0).curEl.val < 1) ∧
    (AtMicroOp (enabling (platform Variant.old 1 7) 1) .el3 1 ∧ 1 ≤ (platform Variant.old 1 7).curEl.val ∧
      bits (platform Variant.old 1 7).idAa64mmfr0El1 3 0 > 6) ∧
    AtMicroOp (enabling (platform Variant.old 3 6) 1) .el3 1 ∧ 1 ≤ (platform Variant.old 3 6).curEl.val ∧
      bits (platform Variant.old 3 6).idAa64mmfr0El1 3 0 ≤ 6 :=
  ⟨⟨at_new 1 (by decide) 0 0, by decide⟩, ⟨at_old 1 (by decide) 1 7, by decide, by decide⟩, at_old 1 (by decide) 3 6,
    by decide, by decide⟩
theorem test_witness_MicroOpWriteTcr : BothLevels 2 := bothLevels 2 (by decide)
theorem test_witness_ProgrammedTcrFields :
    AtMicroOp (enabling newPlatform 2) .el2 2 ∧ levelOf .el2 ≤ (enabling newPlatform 2).curEl.val ∧
    (enabling newPlatform 2).inputs = [] := ⟨at_new 2 (by decide) 2 5, by decide, rfl⟩
theorem test_witness_MicroOpWriteTtbr : bits (enabling oldPlatform 3).cfg.tableBase 15 0 = 0 ∧ BothLevels 3 := ⟨by decide, bothLevels 3 (by decide)⟩
theorem test_witness_MicroOpDataBarriers :
    (AtMicroOp (enabling oldPlatform 4) .el3 4 ∧ (enabling oldPlatform 4).cfg.dsb1Scope = .sy) ∧
    (AtMicroOp { enabling newPlatform 4 with cfg := { newPlatform.cfg with dsb1Scope := .ish } } .el2 4 ∧
      { enabling newPlatform 4 with cfg := { newPlatform.cfg with dsb1Scope := .ish } }.cfg.dsb1Scope = .ish) ∧
    AtMicroOp (enabling oldPlatform 8) .el3 8 :=
  ⟨⟨at_old 4 (by decide) 3 0x1122, rfl⟩, ⟨⟨rfl, rfl, rfl, rfl, rfl⟩, rfl⟩, at_old 8 (by decide) 3 0x1122⟩
theorem holds_ctxOf (s : State) (e : El) : Holds (s.ctxOf e) s e := ⟨rfl, rfl, rfl, rfl, rfl, rfl, rfl, rfl, rfl⟩
theorem test_witness_MicroOpInstructionBarriers :
    (Holds ((enabling oldPlatform 5).ctxOf .el3) (enabling oldPlatform 5) .el3 ∧ AtMicroOp (enabling oldPlatform 5) .el3 5) ∧
    Holds ((enabling newPlatform 9).ctxOf .el2) (enabling newPlatform 9) .el2 ∧ AtMicroOp (enabling newPlatform 9) .el2 9 :=
  ⟨⟨holds_ctxOf _ _, at_old 5 (by decide) 3 0x1122⟩, holds_ctxOf _ _, at_new 9 (by decide) 2 5⟩
theorem test_witness_MicroOpReadSctlr : BothLevels 6 := bothLevels 6 (by decide)
theorem test_witness_MicroOpWriteSctlr : BothLevels 7 := bothLevels 7 (by decide)
theorem test_witness_SctlrChangesSixBitsOnly :
    (AtMicroOp (enabling oldPlatform 7) .el3 7 ∧ levelOf .el3 ≤ (enabling oldPlatform 7).curEl.val ∧
      (enabling oldPlatform 7).inputs = [] ∧ 63 < 64) ∧
    State.reset.ctx.ctl.i = false ∧ State.reset.ctx.ctl.c = false ∧
    ((AccessControls.mk false true true false false).i = true ∧ (AccessControls.mk false true true false false).c = true) ∧
    memTypeOf (mairAttr mairVal (bits (encPageRam 8) 4 2)) = .normalWriteBack :=
  ⟨⟨at_old 7 (by decide) 3 0x1122, by decide, rfl, by decide⟩, rfl, rfl, ⟨rfl, rfl⟩, by decide⟩
theorem test_witness_DatapathSuppliesX0 :
    (AtMicroOp (enabling oldPlatform 0) .el3 0 ∧ 0 < 10 ∧ levelOf .el3 ≤ (enabling oldPlatform 0).curEl.val ∧
      (enabling oldPlatform 0).inputs = []) ∧
    AtMicroOp (enabling oldPlatform 9) .el3 9 ∧ 9 < 10 ∧ levelOf .el3 ≤ (enabling oldPlatform 9).curEl.val ∧
      (enabling oldPlatform 9).inputs = [] :=
  ⟨⟨at_old 0 (by decide) 3 0x1122, by decide, by decide, rfl⟩, at_old 9 (by decide) 3 0x1122, by decide, by decide, rfl⟩
theorem test_witness_EnableCompletesWithTheEndState :
    Idle { builtState with inputs := [.write 0x20000000] } ∧ { builtState with inputs := [.write 0x20000000] }.built = true ∧
    { builtState with inputs := [.write 0x20000000] }.enabled = false ∧ ConfigLegal builtState.cfg ∧
    OneCommand { builtState with inputs := [.write 0x20000000] } 0x20000000 ∧
    elOf builtState.cfg.variant.el = some .el3 ∧ levelOf .el3 ≤ builtState.curEl.val ∧
    bits builtState.idAa64mmfr0El1 3 0 ≤ 6 :=
  ⟨⟨rfl, rfl⟩, rfl, rfl, legal_common, rfl, rfl, by decide, by decide⟩
theorem test_witness_SeqLeavesTheOtherLevelAlone :
    (enabling oldPlatform 0).inputs = [] ∧ (enabling oldPlatform 0).busy = true ∧ (enabling oldPlatform 0).mode = .enable ∧
    elOf (enabling oldPlatform 0).cfg.variant.el = some .el3 ∧ El.el2 ≠ .el3 ∧
    after (fun _ => true) (step (enabling oldPlatform 0)) = some true := by decide

/-! ### A64-SYS words outside SEQ, and frames -/

theorem test_witness_MsrOutsideSeqWritesItsRegister :
    3 ≤ State.reset.curEl.val ∧ 31 < 32 ∧
    (∀ i ∈ [Instr.msrMairEl3 31, .msrTcrEl3 0, .msrTtbr0El3 30, .msrSctlrEl3 1, .msrMairEl2 31, .msrTcrEl2 0,
      .msrTtbr0El2 30, .msrSctlrEl2 1], State.reset.seqRuns i = false) := by decide
theorem test_witness_MrsOutsideSeqReadsItsRegister :
    State.reset.seqRuns (.mrsSctlrEl3 31) = false ∧ State.reset.seqRuns (.mrsSctlrEl2 0) = false ∧
    (platform Variant.old 1 0).seqRuns (.mrsIdAa64mmfr0El1 30) = false ∧ 3 ≤ State.reset.curEl.val ∧
    1 ≤ (platform Variant.old 1 0).curEl.val ∧ 31 < 32 := by decide
theorem test_witness_MovesBelowTheirLevelAreUndefined :
    (platform Variant.old 2 0).seqRuns (.msrMairEl3 0) = false ∧ (platform Variant.old 2 0).curEl.val < 3 ∧
    (platform Variant.old 1 0).seqRuns (.mrsSctlrEl2 0) = false ∧ (platform Variant.old 1 0).curEl.val < 2 ∧
    (platform Variant.old 0 0).seqRuns (.mrsIdAa64mmfr0El1 0) = false ∧ (platform Variant.old 0 0).curEl.val < 1 := by
  decide
theorem test_witness_BarriersOutsideSeq :
    (elOf State.reset.cfg.variant.el = some .el3 ∧ Holds (State.reset.ctxOf .el3) State.reset .el3) ∧
    State.reset.seqRuns .dsbSy = false ∧ State.reset.seqRuns .dsbIsh = false ∧ State.reset.seqRuns .isb = false :=
  ⟨⟨rfl, holds_ctxOf _ _⟩, by decide, by decide, by decide⟩
theorem test_witness_NoInstructionWritesMemory :
    after (fun _ => true) (exec .build State.reset) = some true ∧
    after (fun _ => true) (exec (.msrTcrEl3 31) State.reset) = some true := by decide
theorem test_witness_CommandFrame :
    (∀ i ∈ [Instr.build, .enable, .encTable 8191, .encPage 131071], after (fun _ => true) (exec i State.reset) = some true) ∧
    State.reset.busy = false := by decide
theorem test_witness_MsrFrame :
    (∀ i ∈ [Instr.msrMairEl3 31, .msrTcrEl3 0, .msrTtbr0El3 30, .msrSctlrEl3 1, .msrMairEl2 31, .msrTcrEl2 0,
      .msrTtbr0El2 30, .msrSctlrEl2 1], after (fun _ => true) (exec i State.reset) = some true) ∧
    State.reset.seqRuns (.msrMairEl3 31) = false ∧ (enabling oldPlatform 0).seqRuns (.msrMairEl3 0) = true ∧
    after (fun _ => true) (exec (.msrMairEl3 0) (enabling oldPlatform 0)) = some true := by decide
theorem test_witness_MrsFrame :
    (∀ i ∈ [Instr.mrsSctlrEl3 31, .mrsSctlrEl2 0, .mrsIdAa64mmfr0El1 30],
      after (fun _ => true) (exec i State.reset) = some true) ∧
    State.reset.seqRuns (.mrsSctlrEl3 31) = false ∧ (enabling oldPlatform 6).seqRuns (.mrsSctlrEl3 0) = true ∧
    after (fun _ => true) (exec (.mrsSctlrEl3 0) (enabling oldPlatform 6)) = some true := by decide
theorem test_witness_BarrierFrame :
    (∀ i ∈ [Instr.dsbSy, .dsbIsh, .isb], after (fun _ => true) (exec i State.reset) = some true) ∧
    State.reset.seqRuns .isb = false ∧ (enabling oldPlatform 9).seqRuns .isb = true := by decide

/-! ### Invariants and the consumer -/

theorem test_witness_StepKeepsControl :
    ControlInv (building 81919) ∧ after (fun _ => true) (step (building 81919)) = some true ∧
    ControlInv (enabling oldPlatform 9) ∧ after (fun _ => true) (step (enabling oldPlatform 9)) = some true ∧
    ControlInv errorState ∧ ControlInv builtState :=
  ⟨(control_of_building 81919 (by decide)), by decide, (control_of_enabling 9 (by decide)), by decide, control_error, control_built⟩
theorem test_witness_StepKeepsTables :
    (ControlInv (building 0) ∧ TableInv (building 0) ∧ after (fun _ => true) (step (building 0)) = some true) ∧
    TableInv tablesState :=
  ⟨⟨(control_of_building 0 (by decide)), ⟨by decide, fun _ i h => absurd h (Nat.not_lt_zero i), fun h => Bool.noConfusion h⟩, by decide⟩,
    ⟨writtenMem_wf Config.common totalEntries (by decide), fun h => Mode.noConfusion h, fun _ => entries_tablesState⟩⟩
theorem test_witness_BlockStepsAlwaysComplete :
    ControlInv (building 81919) ∧ (building 81919).inputs = [] ∧ ControlInv (enabling oldPlatform 9) ∧
    (enabling oldPlatform 9).inputs = [] := ⟨(control_of_building 81919 (by decide)), rfl, (control_of_enabling 9 (by decide)), rfl⟩
theorem test_witness_NoWriteAfterBuild :
    ControlInv builtState ∧ builtState.built = true ∧ step builtState = .next builtState := ⟨control_built, rfl, rfl⟩

/-- The end state of 95_test_vectors.md P1. -/
def enabledState : State :=
  { tablesState with
    enabled := true, upc := 10, ps := 2, tmp := 0x30C50830, mairEl3 := 0x4404FF, tcrEl3 := 0x80827520, ttbr0El3 := 0x100001,
    sctlrEl3 := 0x30C51835,
    ctx :=
      { mmuOn := true, mair := 0x4404FF, tcr := 0x80827520, ttbr0 := 0x100001,
        ctl := { a := false, c := true, i := true, wxn := false, ee := false } } }

theorem control_enabled : ControlInv enabledState where
  busy_iff := ⟨fun h => Bool.noConfusion h, fun h => absurd rfl h⟩
  err_stops := fun _ => rfl
  err_none := fun _ => ⟨rfl, rfl⟩
  err_some := fun h => Bool.noConfusion h
  ipc_le := Nat.le_refl _
  upc_le := Nat.le_refl _
  building := fun h => Mode.noConfusion h
  enabling := fun h => Mode.noConfusion h
  built_all := fun _ => ⟨rfl, legal_common⟩
  enabled_all := fun _ => ⟨rfl, rfl⟩

theorem tables_enabled : TableInv enabledState :=
  ⟨writtenMem_wf Config.common totalEntries (by decide), fun h => Mode.noConfusion h, fun _ i h => entries_tablesState i h⟩

theorem seq_enabled : SeqInv enabledState := by
  refine ⟨fun h => Mode.noConfusion h, fun _ e he => ?_⟩
  have h3 : e = .el3 := (Option.some.inj he).symm
  subst h3
  exact
    { mair := fun _ => rfl, paRange := fun _ => ⟨by decide, rfl⟩, tcr := fun _ => rfl, ttbr0 := fun _ => rfl,
      synced := fun _ => rfl, ctxRegs := fun _ => ⟨rfl, rfl, rfl⟩, tmpRead := fun h => absurd h (by decide),
      sctlr := fun _ => rfl, mmuOn := fun _ => rfl, ctxAll := fun _ => by decide }

theorem seq_enabling : SeqInv (enabling oldPlatform 0) := by
  refine ⟨fun _ e _ => ?_, fun h => Bool.noConfusion h⟩
  constructor <;> exact fun h => absurd h (by decide)

/-- SEQ's own step. -/
theorem test_witness_StepKeepsSequence :
    ControlInv (enabling oldPlatform 0) ∧ SeqInv (enabling oldPlatform 0) ∧ PSole (enabling oldPlatform 0) ∧
    (enabling oldPlatform 0).enabled = false ∧ after (fun _ => true) (step (enabling oldPlatform 0)) = some true :=
  ⟨control_of_enabling 0 (by decide), seq_enabling, fun _ _ => targetUntouched_of_no_cpu (fun _ h => nomatch h), rfl,
    by decide⟩

/-- A CPU word before the ENABLE's µop n. -/
def cpuAt (n : Nat) (w : Word32) : State := { enabling oldPlatform n with inputs := [.cpu w] }

/-- P_SOLE allows a CPU's write of the other level's MAIR and the word that is the current µop, and no other write of a
target register (70_reset_and_hazards.md R236). -/
theorem test_p_sole :
    PSole (cpuAt 0 0xD51CA200) ∧ PSole (cpuAt 0 0xD51EA200) ∧ ¬PSole (cpuAt 1 0xD51EA200) := by
  refine ⟨fun _ _ => targetUntouched_of_word rfl test_decode_mair_el2 fun e r he hm hr => ?_,
    fun _ _ => targetUntouched_of_word rfl test_decode_mair_el3 fun _ _ _ _ _ => by decide, fun h => ?_⟩
  · cases Option.some.inj he
    cases Option.some.inj hm
    rcases hr with h | h | h | h <;> cases h
  · exact absurd (h (Or.inr rfl) rfl 0xD51EA200 _ .el3 _ rfl test_decode_mair_el3 rfl rfl (Or.inl rfl)) (by decide)

/-- After ENABLE, a CPU's ISB. -/
theorem test_witness_StepKeepsSequence_enabled :
    (∀ l, ControlInv { enabledState with inputs := l } ∧ SeqInv { enabledState with inputs := l } ∧
      PSole { enabledState with inputs := l }) ∧
    TargetUntouched { enabledState with inputs := [.cpu 0xD5033FDF] } :=
  ⟨fun l => ⟨controlInv_inputs control_enabled l, seqInv_inputs seq_enabled l, fun _ h => Bool.noConfusion h⟩,
    targetUntouched_of_word rfl test_decode_isb fun _ _ _ hm _ => nomatch hm⟩

theorem enabledAt : EnabledAt enabledState .el3 :=
  ⟨⟨control_enabled, tables_enabled, seq_enabled⟩, rfl, rfl, ⟨rfl, rfl⟩, rfl⟩

/-- An access that touches one or two pages, none of them a device page, is permitted. -/
theorem permitted_of_ram {c : Config} {a : Access} (hp : a.pages ≤ 2) (h0 : classOf c (a.page 0) = .ram)
    (h1 : a.pages = 2 → classOf c (a.page 1) = .ram) : Permitted c a := by
  rintro ⟨k, hk, -, hd⟩
  match k, hk, hd with
  | 0, _, hd => rw [h0] at hd; cases hd
  | 1, hk, hd => rw [h1 (by omega)] at hd; cases hd
  | k + 2, hk, _ => omega

/-- Aligned data accesses to a device page, an unaligned one from one RAM page into the next, and the last doubleword. -/
theorem test_witness_EnabledMmuMapsEveryAddressToItself :
    EnabledAt enabledState .el3 ∧
    (Permitted enabledState.cfg ⟨.load, 0x3F200000, 4⟩ ∧ classOf enabledState.cfg 0x3F20 = .dev) ∧
    (Permitted enabledState.cfg ⟨.store, 0x8FFFE, 4⟩ ∧ (Access.mk .store 0x8FFFE 4).pages = 2) ∧
    Permitted enabledState.cfg ⟨.store, 0xFFFFFFF8, 8⟩ ∧ (0xFFFFFFF8 : Word64).toNat + (8 - 1) < 2 ^ 32 :=
  ⟨enabledAt, ⟨fun _ => ⟨by decide, by decide⟩, rfl⟩, ⟨permitted_of_ram (by decide) rfl fun _ => rfl, by decide⟩,
    permitted_of_ram (by decide) rfl fun h => absurd h (by decide), by decide⟩

/-- The byte at 4 GiB, a doubleword that runs past it from RAM, and a fetch that runs past it from a device page of NEW. -/
theorem test_witness_EnabledMmuFaultsFrom4GiB :
    EnabledAt enabledState .el3 ∧ 2 ^ 32 ≤ (Access.mk .load 0x100000000 1).va.toNat ∧
    (2 ^ 32 ≤ (0xFFFFFFFC : Word64).toNat + (8 - 1) ∧ Permitted enabledState.cfg ⟨.load, 0xFFFFFFFC, 8⟩) ∧
    TouchesDevice newPlatform.cfg ⟨.fetch, 0xFFFFFFFE, 4⟩ :=
  ⟨enabledAt, by decide, ⟨by decide, fun h => absurd h fun ⟨k, hk, hl, _⟩ => by
    match k, hk with
    | 0, _ => rename_i hd; exact absurd hd (by decide)
    | k + 1, _ => simp only [Access.page, show ((0xFFFFFFFC : Word64).toNat / pageSize) = 0xFFFF by decide] at hl; omega⟩,
    ⟨0, by decide, by decide, rfl⟩⟩

/-- A fetch from the first device page, one that runs into it, an unaligned load inside the window and one that runs into
it from the last RAM page below. -/
theorem test_witness_EnabledMmuFaultsOnDevicePages :
    EnabledAt enabledState .el3 ∧ TouchesDevice enabledState.cfg ⟨.fetch, 0x3F000000, 4⟩ ∧
    TouchesDevice enabledState.cfg ⟨.fetch, 0x3EFFFFFE, 4⟩ ∧
    (TouchesDevice enabledState.cfg ⟨.load, 0x3FFFFFFE, 4⟩ ∧ (Access.mk .load 0x3FFFFFFE 4).unaligned = true) ∧
    TouchesDevice enabledState.cfg ⟨.load, 0x3EFFFFFC, 8⟩ ∧ (Access.mk .load 0x3EFFFFFC 8).unaligned = true :=
  ⟨enabledAt, ⟨0, by decide, by decide, rfl⟩, ⟨1, by decide, by decide, rfl⟩, ⟨⟨0, by decide, by decide, rfl⟩, by decide⟩,
    ⟨1, by decide, by decide, rfl⟩, by decide⟩

/-! ## The consumer, where no table is read -/

/-- Before u5 and before u9 of an ENABLE from reset's registers: untranslated while M is 0 in both contexts (R238), and
not determined once u7 has set it (20_memory.md R72). -/
theorem test_mmu_off :
    mmuAccess { enabling oldPlatform 5 with mairEl3 := 0x4404FF, tcrEl3 := 0x80827520, ttbr0El3 := 0x100001 }
      ⟨.load, 0x80000, 4⟩ = .untranslated (some .little) ∧
    mmuAccess { enabling oldPlatform 8 with sctlrEl3 := 0x30C51835 } ⟨.load, 0x80000, 4⟩ =
      .stop (.noValue .unsynchronised) := by decide

/-- EE selects the byte order of data with the MMU off too; a write of it governs no access for certain before the ISB (R61,
20_memory.md R72). -/
theorem test_mmu_byte_order :
    mmuAccess ({ State.reset with sctlrEl3 := 0x32C50830 }.isb) ⟨.store, 0x80000, 4⟩ = .untranslated (some .big) ∧
    mmuAccess { State.reset with sctlrEl3 := 0x32C50830 } ⟨.store, 0x80000, 4⟩ = .stop (.noValue .unsynchronised) ∧
    mmuAccess { State.reset with sctlrEl3 := 0x32C50830 } ⟨.fetch, 0x80000, 4⟩ = .untranslated none := by decide

/-- From 4 GiB on an access faults before the walk, whatever walker_sync (R77, 90_conflicts.md C2). -/
theorem test_mmu_range :
    mmuAccess { enabledState with mem := [], walkerSync := false } ⟨.fetch, 0x100000000, 4⟩ =
      .stop (.fault .translationRange) := by decide

/-- A page of RAM under WXN = 1 is not executable, and under C = 0 its data is Non-cacheable (R47, R79). -/
theorem test_mmu_controls :
    (pageResult { enabledState.ctx with ctl := { enabledState.ctx.ctl with wxn := true } } .el3 ⟨.fetch, 0x80000, 4⟩ 0x80000
      0x80743).toOption = none ∧
    ((pageResult { enabledState.ctx with ctl := { enabledState.ctx.ctl with c := false } } .el3 ⟨.load, 0x80000, 4⟩ 0x80000
      0x80743).toOption.map Translation.memType) = some .normalNonCacheable := by decide

end Sys2Proof.Tests
end

/-! ## What an instruction can do -/

namespace Sys2Proof.Machine

/-- States reached from s by writes that are neither to the block's control registers nor to memory: X registers, system
registers, tmp, ps, enc_out and the CPU's hidden state. -/
inductive DataWrites (s : State) : State → Prop where
  | none : DataWrites s s
  | x {t : State} (h : DataWrites s t) (n : Nat) (v : Word64) : DataWrites s (t.writeX n v)
  | sysReg {t : State} (h : DataWrites s t) (r : SysReg) (v : Word64) : DataWrites s (t.setSysReg r v)
  | tmp {t : State} (h : DataWrites s t) (v : Word64) : DataWrites s { t with tmp := v }
  | ps {t : State} (h : DataWrites s t) (v : BitVec 3) : DataWrites s { t with ps := v }
  | encOut {t : State} (h : DataWrites s t) (v : Word64) : DataWrites s { t with encOut := v }
  | dsb {t : State} (h : DataWrites s t) (d : DsbScope) : DataWrites s (t.dsb d)
  | isb {t : State} (h : DataWrites s t) : DataWrites s t.isb

/-- Everything an instruction that answers a next state can do to the control registers, after its data writes. -/
inductive ExecCase (s t : State) : Prop where
  /-- Nothing: an ENC command, a command after an error, or a move or barrier outside SEQ. -/
  | data (h : DataWrites s t)
  /-- An error entry (60_exceptions.md R205), by acceptance or by a µop. -/
  | raised (u : State) (hu : DataWrites s u) (c : ErrCode) (w : Word64) (hc : c ≠ .none) (h : t = u.raise c w)
  /-- An accepted BUILD (41_initializer.md R140). -/
  | startBuild (he : s.err = false) (hn : s.enabled = false) (hc : configError s.cfg = none) (h : t = startBuild s)
  /-- An accepted ENABLE (42_sequencer.md R160). -/
  | startEnable (he : s.err = false) (hb : s.built = true) (hn : s.enabled = false) (h : t = startEnable s)
  /-- A µop that raised no error (R162). -/
  | uopDone (hm : s.mode = .enable) (u : State) (hu : DataWrites s u) (h : t = u.uopDone)

theorem accept_execCase {w : Word32} {k : CommandChecks} {f : State → State} {s : State}
    (hf : s.err = false → acceptError w k s = none → ExecCase s (f s)) : ExecCase s (accept w k f s) := by
  obtain ⟨-, h⟩ | ⟨e, -, he, h⟩ | ⟨he, ha, h⟩ := accept_cases w k f s <;> rw [h]
  · exact .data .none
  · exact .raised s .none e.code e.info (acceptError_code he) rfl
  · exact hf he ha

theorem mode_of_seqRuns {s : State} {i : Instr} (h : s.seqRuns i = true) : s.mode = .enable :=
  ((seqRuns_iff s i).1 h).2.1

/-- An MSR row, as a µop or outside SEQ. -/
theorem msr_execCase {s t : State} {i : Instr} {u : Nat} {r : SysReg} {v : Word64} {rt : Nat}
    (h : (if s.seqRuns i then .next (seqWrite u r v s) else cpuMsr r rt s) = Host.Outcome.next t) : ExecCase s t := by
  split_ifs at h with hr
  · cases h
    obtain ⟨-, h⟩ | ⟨-, h⟩ := seqWrite_cases u r v s <;> rw [h]
    · exact .uopDone (mode_of_seqRuns hr) _ (.sysReg (.x .none 0 v) r v) rfl
    · exact .raised s .none .sysreg _ (by decide) rfl
  · obtain ⟨-, hc⟩ | ⟨-, hc⟩ := cpuMsr_cases r rt s <;> rw [hc] at h <;> cases h
    exact .data (.sysReg .none r _)

/-- An MRS outside SEQ. -/
theorem cpuMrs_execCase {s t : State} {r : SysReg} {rt : Nat} (h : cpuMrs r rt s = .next t) : ExecCase s t := by
  obtain ⟨-, hc⟩ | ⟨-, hc⟩ := cpuMrs_cases r rt s <;> rw [hc] at h <;> cases h
  exact .data (.x .none rt _)

/-- An MRS row of SCTLR, as µop u6 or outside SEQ. -/
theorem mrsSctlr_execCase {s t : State} {i : Instr} {r : SysReg} {rt : Nat}
    (h : (if s.seqRuns i then .next (seqReadSctlr r s) else cpuMrs r rt s) = Host.Outcome.next t) : ExecCase s t := by
  split_ifs at h with hr
  · cases h
    obtain ⟨-, h⟩ | ⟨-, h⟩ := seqReadSctlr_cases r s <;> rw [h]
    · exact .raised s .none .sysreg _ (by decide) rfl
    · exact .uopDone (mode_of_seqRuns hr) _ (.tmp (.x .none 0 _) _) rfl
  · exact cpuMrs_execCase h

/-- The MRS row of ID_AA64MMFR0_EL1, as µop u1 or outside SEQ. -/
theorem mrsMmfr0_execCase {s t : State} {i : Instr} {r : SysReg} {rt : Nat}
    (h : (if s.seqRuns i then .next (seqReadMmfr0 s) else cpuMrs r rt s) = Host.Outcome.next t) : ExecCase s t := by
  split_ifs at h with hr
  · cases h
    obtain ⟨-, h⟩ | ⟨-, -, h⟩ | ⟨-, -, h⟩ := seqReadMmfr0_cases s <;> rw [h]
    · exact .raised s .none .sysreg _ (by decide) rfl
    · exact .raised _ (.tmp (.x .none 0 _) _) .parange _ (by decide) rfl
    · exact .uopDone (mode_of_seqRuns hr) _ (.ps (.tmp (.x .none 0 s.idAa64mmfr0El1) s.idAa64mmfr0El1) _) rfl
  · exact cpuMrs_execCase h

/-- A barrier, as a µop or outside SEQ. -/
theorem barrier_execCase {s : State} {i : Instr} {f : State → State} (hf : DataWrites s (f s)) :
    ExecCase s (barrier i f s) := by
  unfold barrier
  split_ifs with hr
  · exact .uopDone (mode_of_seqRuns hr) (f s) hf rfl
  · exact .data hf

/-- Everything an instruction can do, by cases. -/
theorem exec_cases {i : Instr} {s t : State} (h : exec i s = .next t) : ExecCase s t := by
  cases i with
  | build =>
    cases h
    refine accept_execCase fun he ha => ?_
    obtain ⟨-, hn, -, hc, -⟩ := (acceptError_none_iff _ _ s).1 ha
    exact .startBuild he (hn rfl) hc rfl
  | enable =>
    cases h
    refine accept_execCase fun he ha => ?_
    obtain ⟨-, hn, hb, -, -⟩ := (acceptError_none_iff _ _ s).1 ha
    exact .startEnable he (hb rfl) (hn rfl) rfl
  | encTable slot => cases h; exact accept_execCase fun _ _ => .data (.encOut .none _)
  | encPage g => cases h; exact accept_execCase fun _ _ => .data (.encOut .none _)
  | msrMairEl3 rt => exact msr_execCase h
  | msrTcrEl3 rt => exact msr_execCase h
  | msrTtbr0El3 rt => exact msr_execCase h
  | msrSctlrEl3 rt => exact msr_execCase h
  | mrsSctlrEl3 rt => exact mrsSctlr_execCase h
  | msrMairEl2 rt => exact msr_execCase h
  | msrTcrEl2 rt => exact msr_execCase h
  | msrTtbr0El2 rt => exact msr_execCase h
  | msrSctlrEl2 rt => exact msr_execCase h
  | mrsSctlrEl2 rt => exact mrsSctlr_execCase h
  | mrsIdAa64mmfr0El1 rt => exact mrsMmfr0_execCase h
  | dsbSy => cases h; exact barrier_execCase (.dsb .none .sy)
  | dsbIsh => cases h; exact barrier_execCase (.dsb .none .ish)
  | isb => cases h; exact barrier_execCase (.isb .none)

/-- SEQ's current µop always answers a next state: its errors are taken (R205). -/
theorem exec_of_seqRuns {i : Instr} {s : State} (h : s.seqRuns i = true) : ∃ t, exec i s = .next t := by
  cases i with
  | build | enable | encTable | encPage | dsbSy | dsbIsh | isb => exact ⟨_, rfl⟩
  | msrMairEl3 | msrTcrEl3 | msrTtbr0El3 | msrSctlrEl3 | mrsSctlrEl3 | msrMairEl2 | msrTcrEl2 | msrTtbr0El2
  | msrSctlrEl2 | mrsSctlrEl2 | mrsIdAa64mmfr0El1 => exact ⟨_, if_pos h⟩

end Sys2Proof.Machine

/-! ## The control invariant -/

namespace Sys2Proof

open Machine

/-- The registers and the configuration that ControlInv reads are unchanged. -/
def SameControl (s t : State) : Prop :=
  t.busy = s.busy ∧ t.mode = s.mode ∧ t.built = s.built ∧ t.enabled = s.enabled ∧ t.err = s.err ∧
    t.errcode = s.errcode ∧ t.errinfo = s.errinfo ∧ t.ipc = s.ipc ∧ t.upc = s.upc ∧ t.cfg = s.cfg

theorem dataWrites_sameControl {s t : State} (h : DataWrites s t) : SameControl s t := by
  induction h with
  | none => simp [SameControl]
  | x _ n v ih => simpa [SameControl] using ih
  | sysReg _ r v ih => simpa [SameControl] using ih
  | tmp _ v ih | ps _ v ih | encOut _ v ih => exact ih
  | dsb _ d ih => simpa [SameControl] using ih
  | isb _ ih => simpa [SameControl] using ih

theorem controlInv_dataWrites {s t : State} (h : ControlInv s) (hd : DataWrites s t) : ControlInv t := by
  obtain ⟨hb, hm, hu, he, hr, hc, hi, hp, hn, hf⟩ := dataWrites_sameControl hd
  exact controlInv_congr hb hm hu he hr hc hi hp hn hf h

theorem controlInv_raise {s : State} (h : ControlInv s) {c : ErrCode} (hc : c ≠ .none) (w : Word64) :
    ControlInv (s.raise c w) := by
  cases he : s.err with
  | true => rwa [raise_of_err he]
  | false =>
    rw [raise_of_no_err he]
    exact { h with
      busy_iff := by simp
      err_stops := fun _ => rfl
      err_none := fun h' => Bool.noConfusion h'
      err_some := fun _ => hc
      building := fun h' => Mode.noConfusion h'
      enabling := fun h' => Mode.noConfusion h' }

theorem controlInv_blockReset (s : State) : ControlInv s.blockReset where
  busy_iff := by simp [State.blockReset]
  err_stops := fun _ => rfl
  err_none := fun _ => ⟨rfl, rfl⟩
  err_some := fun h => Bool.noConfusion h
  ipc_le := Nat.zero_le _
  upc_le := Nat.zero_le _
  building := fun h => Mode.noConfusion h
  enabling := fun h => Mode.noConfusion h
  built_all := fun h => Bool.noConfusion h
  enabled_all := fun h => Bool.noConfusion h

theorem controlInv_startBuild {s : State} (h : ControlInv s) (he : s.err = false) (hn : s.enabled = false)
    (hc : configError s.cfg = none) : ControlInv (startBuild s) :=
  { h with
    busy_iff := by simp [startBuild]
    err_stops := fun h' => Bool.noConfusion (he.symm.trans h')
    ipc_le := Nat.zero_le _
    building := fun _ => ⟨rfl, hn, by simp [startBuild], hc⟩
    enabling := fun h' => Mode.noConfusion h'
    built_all := fun h' => Bool.noConfusion h'
    enabled_all := fun h' => Bool.noConfusion (hn.symm.trans h') }

theorem controlInv_startEnable {s : State} (h : ControlInv s) (he : s.err = false) (hb : s.built = true)
    (hn : s.enabled = false) : ControlInv (startEnable s) :=
  { h with
    busy_iff := by simp [startEnable]
    err_stops := fun h' => Bool.noConfusion (he.symm.trans h')
    upc_le := Nat.zero_le _
    building := fun h' => Mode.noConfusion h'
    enabling := fun _ => ⟨hb, hn, by simp [startEnable]⟩
    enabled_all := fun h' => Bool.noConfusion (hn.symm.trans h') }

theorem controlInv_uopDone {s : State} (h : ControlInv s) (hm : s.mode = .enable) : ControlInv s.uopDone := by
  obtain ⟨hb, hn, hu⟩ := h.enabling hm
  unfold State.uopDone
  split_ifs with h9
  · exact { h with
      busy_iff := by simp
      err_stops := fun _ => rfl
      upc_le := Nat.le_refl 10
      building := fun h' => Mode.noConfusion h'
      enabling := fun h' => Mode.noConfusion h'
      enabled_all := fun _ => ⟨hb, rfl⟩ }
  · have hs : (s.upc + 1).toNat < 10 := by bv_omega
    exact { h with
      upc_le := Nat.le_of_lt hs
      building := fun h' => Mode.noConfusion (hm.symm.trans h')
      enabling := fun _ => ⟨hb, hn, hs⟩
      enabled_all := fun h' => Bool.noConfusion (hn.symm.trans h') }

theorem controlInv_entryWritten {s : State} (h : ControlInv s) (hm : s.mode = .build) : ControlInv s.entryWritten := by
  obtain ⟨hb, hn, hi, hc⟩ := h.building hm
  have hs : (s.ipc + 1).toNat = s.ipc.toNat + 1 := ipc_succ_toNat hi
  unfold State.entryWritten
  split_ifs with hl
  · exact { h with
      busy_iff := by simp
      err_stops := fun _ => rfl
      ipc_le := Nat.le_of_eq (hs.trans hl)
      building := fun h' => Mode.noConfusion h'
      enabling := fun h' => Mode.noConfusion h'
      built_all := fun _ => ⟨hs.trans hl, hc⟩
      enabled_all := fun h' => Bool.noConfusion (hn.symm.trans h') }
  · have hlt : (s.ipc + 1).toNat < totalEntries := hs ▸ Nat.lt_of_le_of_ne hi hl
    exact { h with
      ipc_le := Nat.le_of_lt hlt
      building := fun _ => ⟨hb, hn, hlt, hc⟩
      enabling := fun h' => Mode.noConfusion (hm.symm.trans h')
      built_all := fun h' => Bool.noConfusion (hb.symm.trans h')
      enabled_all := fun h' => Bool.noConfusion (hn.symm.trans h') }

theorem controlInv_acceptBadWord {s : State} (h : ControlInv s) (w : Word32) : ControlInv (acceptBadWord w s) := by
  unfold acceptBadWord
  split_ifs
  · exact h
  · exact controlInv_raise h (by decide) _
  · exact controlInv_raise h (by decide) _

theorem controlInv_exec {i : Instr} {s t : State} (h : ControlInv s) (hx : exec i s = .next t) : ControlInv t := by
  obtain hd | ⟨u, hu, c, w, hc, rfl⟩ | ⟨he, hn, hc, rfl⟩ | ⟨he, hb, hn, rfl⟩ | ⟨hm, u, hu, rfl⟩ := exec_cases hx
  · exact controlInv_dataWrites h hd
  · exact controlInv_raise (controlInv_dataWrites h hu) hc w
  · exact controlInv_startBuild h he hn hc
  · exact controlInv_startEnable h he hb hn
  · obtain ⟨-, hum, -⟩ := dataWrites_sameControl hu
    exact controlInv_uopDone (controlInv_dataWrites h hu) (hum.trans hm)

theorem controlInv_initStep {s t : State} (h : ControlInv s) (hm : s.mode = .build) (hx : initStep s = .next t) :
    ControlInv t := by
  obtain ⟨-, -, hi, hc⟩ := h.building hm
  have hp : ∀ m p, ControlInv { s with mem := m, memPort := p } := fun m p =>
    controlInv_congr (s := s) rfl rfl rfl rfl rfl rfl rfl rfl rfl rfl h
  obtain ⟨-, hw⟩ | ⟨-, hw⟩ := initStep_cases hi hc <;> rw [hw] at hx <;> cases hx
  · exact controlInv_entryWritten (hp _ _) hm
  · exact controlInv_raise (hp s.mem _) (by decide) _

theorem controlInv_taken {s s0 : State} (h : ControlInv s) (ht : Taken s s0) : ControlInv s0 := by
  cases ht with
  | own => exact h
  | action a rest => exact controlInv_inputs h rest

/-- Settles O52: the block's control registers agree after every case of a step. -/
theorem stepKeepsControl : Obligations.StepKeepsControl := by
  intro s t h hs
  obtain ⟨s0, hs0, hc⟩ := step_cases hs
  have h0 := controlInv_taken h hs0
  cases hc with
  | nothing ht => exact ht ▸ h0
  | reset hi ht => exact ht ▸ controlInv_blockReset s0
  | badWord w ht => exact ht ▸ controlInv_acceptBadWord h0 w
  | command w i hd hx => exact controlInv_exec h0 hx
  | cpu w i hi hd hx => exact controlInv_exec h0 hx
  | build hb hm hx => exact controlInv_initStep h0 hm hx
  | uop i hr hx => exact controlInv_exec h0 hx

end Sys2Proof

/-! ## What a step is -/

namespace Sys2Proof

open Machine Claims

/-- A step that takes a word at CMD, decoded. -/
theorem step_of_command {s : State} {w : Word32} {i : Instr} {rest : List Input} (h : s.inputs = .write w :: rest)
    (hd : decodeCommand w = .ok i) : step s = exec i { s with inputs := rest } := by
  rw [step_of_input h]
  simp only [takeInput, hostWrite, hd]

/-- A step that takes a word at the CPU, decoded. -/
theorem step_of_cpuWord {s : State} {w : Word32} {i : Instr} {rest : List Input} (h : s.inputs = .cpu w :: rest)
    (hd : decodeA64 w = .ok i) : step s = exec i { s with inputs := rest } := by
  rw [step_of_input h]
  simp only [takeInput, cpuWord, hd]

/-- The block's own step in a running ENABLE, by the word at upc. -/
theorem blockStep_of_uopWord {s : State} {w : Word32} {i : Instr} (hb : s.busy = true) (hm : s.mode = .enable)
    (hw : uopWord s.cfg s.upc.toNat = some w) (hd : decodeA64 w = .ok i) : blockStep s = exec i s := by
  rw [blockStep_enable hb hm]
  exact seqStep_of_uop (by simp only [uopInstr, hw, hd])

/-- Settles O7: the four places a word is fetched from. -/
theorem stepRunsTheDecodedInstruction : Obligations.StepRunsTheDecodedInstruction := by
  refine ⟨fun s w i rest h hd => step_of_command h hd, fun s w i rest h hd => step_of_cpuWord h hd,
    fun s w i h hb hm hw hd => ?_, fun s w i rest h hb hm hw hd => ?_⟩
  · rw [step_of_no_input h]
    exact blockStep_of_uopWord hb hm hw hd
  · rw [step_of_input h]
    exact blockStep_of_uopWord (s := { s with inputs := rest }) hb hm hw hd

/-- Settles O8: an idle block's own step, and the two actions that are no step of the block. -/
theorem idleStepsAndReadsChangeNothing : Obligations.IdleStepsAndReadsChangeNothing := by
  refine ⟨fun s h hb => ?_, fun s rest h hb => ?_, fun s o rest h => step_of_input h, fun s w rest h => step_of_input h⟩
  · rw [step_of_no_input h, blockStep_idle hb]
  · rw [step_of_input h]
    exact blockStep_idle (s := { s with inputs := rest }) hb

/-- A legal configuration selects a register set (41_initializer.md R141, 42_sequencer.md R175). -/
theorem elOf_of_legal {c : Config} (h : ConfigLegal c) : ∃ e, elOf c.variant.el = some e := by
  obtain ⟨-, -, -, -, h2 | h3⟩ := (configError_none_iff c).1 h
  · exact ⟨.el2, by rw [h2]; rfl⟩
  · exact ⟨.el3, by rw [h3]; rfl⟩

theorem uopTable_length (scope : DsbScope) (e : El) : (uopTable scope e).length = 10 := by cases e <;> rfl

/-- While an ENABLE runs, SEQ has a µop (R161). -/
theorem uopInstr_of_enabling {s : State} (h : ControlInv s) (hm : s.mode = .enable) :
    ∃ i, uopInstr s.cfg s.upc.toNat = some i := by
  obtain ⟨hb, -, hu⟩ := h.enabling hm
  obtain ⟨-, hc⟩ := h.built_all hb
  obtain ⟨e, he⟩ := elOf_of_legal hc
  have hl : s.upc.toNat < (uopTable s.cfg.dsb1Scope e).length := by rwa [uopTable_length]
  exact ⟨_, by rw [uopInstr_eq he, List.getElem?_eq_getElem hl]⟩

/-- Settles O55: idle, a running BUILD and a running ENABLE each answer a next state. -/
theorem blockStepsAlwaysComplete : Obligations.BlockStepsAlwaysComplete := by
  intro s h hin
  rw [step_of_no_input hin]
  cases hb : s.busy with
  | false => exact ⟨s, blockStep_idle hb⟩
  | true =>
    cases hm : s.mode with
    | none => exact absurd hm (h.busy_iff.1 hb)
    | build =>
      obtain ⟨-, -, hi, hc⟩ := h.building hm
      rw [blockStep_build hb hm]
      obtain ⟨-, hw⟩ | ⟨-, hw⟩ := initStep_cases hi hc
      · exact ⟨_, hw⟩
      · exact ⟨_, hw⟩
    | enable =>
      obtain ⟨i, hi⟩ := uopInstr_of_enabling h hm
      rw [blockStep_enable hb hm, seqStep_of_uop hi]
      exact exec_of_seqRuns ((seqRuns_iff s i).2 ⟨hb, hm, hi⟩)

end Sys2Proof

/-! ## Reset and the outputs -/

namespace Sys2Proof

open Machine Claims

/-- Settles O9: the values of the reset state, field by field. -/
theorem resetLeavesTheSpecsValues : Obligations.ResetLeavesTheSpecsValues := by
  refine ⟨rfl, rfl, rfl, rfl, rfl, rfl, rfl, rfl, rfl, rfl, rfl, rfl, rfl, rfl, rfl, rfl, rfl, fun e _ => ?_⟩
  cases e <;> decide

/-- Settles O51: the reset state is its own block reset, memory is empty, and nothing is running, built or enabled. -/
theorem invariantsHoldAtReset : Obligations.InvariantsHoldAtReset :=
  ⟨controlInv_blockReset State.reset,
    { memWf := rfl, building := fun h => Mode.noConfusion h, built := fun h => Bool.noConfusion h },
    { running := fun h => Mode.noConfusion h, enabled := fun h => Bool.noConfusion h }⟩

/-- Settles O60: ERRINFO's last clause is the control invariant's. -/
theorem outputsShowTheirRegisters : Obligations.OutputsShowTheirRegisters := by
  intro s
  refine ⟨rfl, rfl, ?_, fun h he => (h.err_none he).2⟩
  exact BitVec.toNat_setWidth_of_le (by decide)

theorem errBits_toNat (c : ErrCode) : (errBits c).toNat = codeNumber c := by cases c <;> rfl

theorem modeBits_toNat (m : Mode) : (modeBits m).toNat = modeNumber m := by cases m <;> rfl

/-- Every field of STATUS, as the number its register holds (10_state.md R32). -/
theorem bits_status (s : State) :
    bits s.status 0 0 = s.busy.toNat ∧ bits s.status 1 1 = s.built.toNat ∧ bits s.status 2 2 = s.enabled.toNat ∧
    bits s.status 3 3 = s.err.toNat ∧ bits s.status 7 4 = codeNumber s.errcode ∧ bits s.status 11 8 = s.upc.toNat ∧
    bits s.status 13 12 = modeNumber s.mode ∧ bits s.status 31 14 = 0 := by
  have hc := errBits_le s.errcode
  have hm := modeBits_lt s.mode
  have hu := s.upc.isLt
  have h0 := Bool.toNat_le s.busy
  have h1 := Bool.toNat_le s.built
  have h2 := Bool.toNat_le s.enabled
  have h3 := Bool.toNat_le s.err
  simp only [bits, status_toNat, ← errBits_toNat, ← modeBits_toNat]
  omega

/-- Settles O11: the fields are those of bits_status, within the bounds of mode and errcode. -/
theorem statusFields : Obligations.StatusFields := by
  refine ⟨fun s => ?_, fun s w rest h => ⟨_, step_of_input h, rfl, rfl⟩⟩
  obtain ⟨h0, h1, h2, h3, hc, hu, hm, hz⟩ := bits_status s
  have hle : codeNumber s.errcode ≤ 0xA := errBits_toNat s.errcode ▸ errBits_le s.errcode
  have hlt : modeNumber s.mode < 3 := modeBits_toNat s.mode ▸ modeBits_lt s.mode
  rw [h0, h1, h2, h3, hc, hm]
  exact ⟨Bool.toNat_eq_one, Bool.toNat_eq_one, Bool.toNat_eq_one, Bool.toNat_eq_one, rfl, hu, rfl, hz, Nat.ne_of_lt hlt,
    hle⟩

end Sys2Proof

/-! ## The frame of every instruction -/

namespace Sys2Proof

open Machine Claims

theorem sameOutside_dataWrites {s t : State} (h : DataWrites s t) : SameOutside s t := by
  induction h with
  | none => simp [SameOutside]
  | x _ n v ih => simpa [SameOutside, State.readByte] using ih
  | sysReg _ r v ih => simpa [SameOutside, State.readByte] using ih
  | tmp _ v ih | ps _ v ih | encOut _ v ih => exact ih
  | dsb _ d ih => simpa [SameOutside, State.readByte] using ih
  | isb _ ih => simpa [SameOutside, State.readByte] using ih

theorem sameOutside_raise {s t : State} (h : SameOutside s t) (c : ErrCode) (w : Word64) :
    SameOutside s (t.raise c w) := by
  simpa [SameOutside, State.readByte] using h

theorem sameOutside_uopDone {s t : State} (h : SameOutside s t) : SameOutside s t.uopDone := by
  simpa [SameOutside, State.readByte] using h

/-- Settles O46: no case of an instruction writes memory or the machine outside the registers. -/
theorem noInstructionWritesMemory : Obligations.NoInstructionWritesMemory := by
  intro i s t hx
  obtain hd | ⟨u, hu, c, w, -, rfl⟩ | ⟨-, -, -, rfl⟩ | ⟨-, -, -, rfl⟩ | ⟨-, u, hu, rfl⟩ := exec_cases hx
  · exact sameOutside_dataWrites hd
  · exact sameOutside_raise (sameOutside_dataWrites hu) c w
  · exact ⟨fun _ => rfl, rfl, rfl, rfl, rfl, rfl, rfl, rfl⟩
  · exact ⟨fun _ => rfl, rfl, rfl, rfl, rfl, rfl, rfl, rfl⟩
  · exact sameOutside_uopDone (sameOutside_dataWrites hu)

end Sys2Proof

/-! ## The values SEQ writes to TCR and SCTLR -/

namespace Sys2Proof

open Machine Claims

/-- The step of a register-writing µop at a sufficient level (42_sequencer.md R163, R165, R166, R170). -/
theorem step_of_writing_uop {s : State} {e : El} {n : Nat} {i : Instr} {r : SysReg} {v : Word64} {rt : Nat}
    (h : AtMicroOp s e n) (hin : s.inputs = []) (hl : minEl r ≤ s.curEl.val)
    (hi : (uopTable s.cfg.dsb1Scope e)[n]? = some i)
    (hx : exec i s = if s.seqRuns i then .next (seqWrite n r v s) else cpuMsr r rt s) :
    step s = .next ((s.writeX 0 v).setSysReg r v).uopDone := by
  obtain ⟨hb, hm, -, hu, he⟩ := h
  obtain ⟨-, hw⟩ | ⟨hlt, -⟩ := seqWrite_cases n r v s
  · rw [step_of_no_input hin, blockStep_enable hb hm, seqStep_of_uop (i := i) (by rw [uopInstr_eq he, hu, hi]), hx,
      if_pos (seqRuns_of_uop hb hm hu he hi), hw]
  · omega

/-- µop u2 leaves TCR_VAL in the level's TCR. -/
theorem step_writeTcr {s : State} {e : El} (h : AtMicroOp s e 2) (hl : levelOf e ≤ s.curEl.val) (hin : s.inputs = []) :
    ∃ t, step s = .next t ∧ t.sysReg (.tcr e) = tcrVal s.ps := by
  cases e with
  | el2 => exact ⟨_, step_of_writing_uop h hin (r := .tcr .el2) hl rfl rfl, by simp⟩
  | el3 => exact ⟨_, step_of_writing_uop h hin (r := .tcr .el3) hl rfl rfl, by simp⟩

/-- µop u7 leaves the changed SCTLR value in the level's SCTLR. -/
theorem step_writeSctlr {s : State} {e : El} (h : AtMicroOp s e 7) (hl : levelOf e ≤ s.curEl.val)
    (hin : s.inputs = []) : ∃ t, step s = .next t ∧ t.sysReg (.sctlr e) = sctlrVal s.tmp := by
  cases e with
  | el2 => exact ⟨_, step_of_writing_uop h hin (r := .sctlr .el2) hl rfl rfl, by simp⟩
  | el3 => exact ⟨_, step_of_writing_uop h hin (r := .sctlr .el3) hl rfl rfl, by simp⟩

/-- The OR of R43 adds PS at its field, which TCR_BASE leaves 0. -/
theorem tcrVal_toNat (ps : BitVec 3) : (tcrVal ps).toNat = 0x80807520 + ps.toNat * 2 ^ 16 := by
  revert ps
  decide

/-- Settles O32: the fields of TCR_VAL as a number. -/
theorem programmedTcrFields : Obligations.ProgrammedTcrFields := by
  intro s e h hl hin
  obtain ⟨t, hs, ht⟩ := step_writeTcr h hl hin
  refine ⟨t, hs, ?_⟩
  have hp := s.ps.isLt
  rw [ht]
  simp only [bits, tcrVal_toNat]
  omega

/-- The bits SCTLR_SET sets are M, C and I, and those SCTLR_CLR clears A, WXN and EE (10_state.md R48). -/
theorem getLsbD_sctlrMasks : ∀ i : Fin 64,
    sctlrSet.getLsbD i = decide (i.val = 0 ∨ i.val = 2 ∨ i.val = 12) ∧
    sctlrClr.getLsbD i = decide (i.val = 1 ∨ i.val = 19 ∨ i.val = 25) := by
  decide

/-- The bits of the value µop u7 writes. -/
theorem getLsbD_sctlrVal (tmp : Word64) {i : Nat} (hi : i < 64) :
    (sctlrVal tmp).getLsbD i =
      (if i = 0 ∨ i = 2 ∨ i = 12 then true else if i = 1 ∨ i = 19 ∨ i = 25 then false else tmp.getLsbD i) := by
  obtain ⟨hset, hclr⟩ := getLsbD_sctlrMasks ⟨i, hi⟩
  simp only [sctlrVal, BitVec.getLsbD_and, BitVec.getLsbD_or, BitVec.getLsbD_not, hset, hclr, hi, decide_true,
    Bool.true_and]
  split_ifs with h1 h2
  · have hn : ¬(i = 1 ∨ i = 19 ∨ i = 25) := by omega
    simp [h1, hn]
  · simp [h2]
  · simp [h1, h2]

/-- The memory type of a translation is MAIR's, under the override of R47. -/
theorem pageTranslation_memType (c : Ctx) (e : El) (k : AccessKind) (d3 va : Word64) :
    (pageTranslation c e k d3 va).memType =
      if c.ctl.forcesNonCacheable k then (memTypeOf (mairAttr c.mair (bits d3 4 2))).forceNonCacheable
      else memTypeOf (mairAttr c.mair (bits d3 4 2)) := rfl

/-- When the override applies: by I to a fetch, by C to a data access (R47). -/
theorem forcesNonCacheable_iff (c : AccessControls) (k : AccessKind) :
    c.forcesNonCacheable k = true ↔ (k = .fetch ∧ c.i = false) ∨ (k ≠ .fetch ∧ c.c = false) := by
  cases k <;> simp [AccessControls.forcesNonCacheable]

theorem forceNonCacheable_ne_writeBack (t : MemType) : t.forceNonCacheable ≠ .normalWriteBack := by
  cases t <;> simp [MemType.forceNonCacheable]

/-- Settles O38: the bits of SCTLR by the masks of R48, the memory type by the two cases of the override. -/
theorem sctlrChangesSixBitsOnly : Obligations.SctlrChangesSixBitsOnly := by
  refine ⟨fun s e h hl hin => ?_, ?_⟩
  · obtain ⟨t, hs, ht⟩ := step_writeSctlr h hl hin
    exact ⟨t, hs, fun i hi => by rw [ht, getLsbD_sctlrVal s.tmp hi]⟩
  · rintro c e k d3 va t rfl
    rw [pageTranslation_memType]
    refine ⟨fun ⟨hf, hd⟩ => ?_, fun h => ?_⟩
    · have hn : ¬c.ctl.forcesNonCacheable k = true := by
        rw [forcesNonCacheable_iff]
        rintro (⟨hk, hi⟩ | ⟨hk, hc⟩)
        · simp [hf hk] at hi
        · simp [hd hk] at hc
      rw [if_neg hn]
    · rw [if_pos ((forcesNonCacheable_iff c.ctl k).2 h)]
      refine ⟨forceNonCacheable_ne_writeBack _, ?_⟩
      rintro (ht | ht) <;> rw [ht] <;> rfl

end Sys2Proof

/-! ## Barriers and moves -/

namespace Sys2Proof

open Machine Claims

theorem barrier_of_uop {i : Instr} {s : State} (h : s.seqRuns i = true) (f : State → State) :
    barrier i f s = (f s).uopDone := if_pos h

theorem barrier_of_cpu {i : Instr} {s : State} (h : s.seqRuns i = false) (f : State → State) : barrier i f s = f s :=
  if_neg (Bool.eq_false_iff.1 h)

/-- An ISB writes the context and nothing else (20_memory.md R72). -/
theorem isb_eq {s : State} {e : El} (h : elOf s.cfg.variant.el = some e) : s.isb = { s with ctx := s.ctxOf e } := by
  simp only [State.isb, h]

/-- A context that holds the registers of a level is the one an ISB copies (R70, R72). -/
theorem eq_ctxOf_of_holds {c : Ctx} {s : State} {e : El} (h : Holds c s e) : c = s.ctxOf e := by
  obtain ⟨hm, ht, hb, ho, ha, hc, hi, hw, hee⟩ := h
  obtain ⟨on, mair, tcr, ttbr0, a, c, i, wxn, ee⟩ := c
  simp only [State.ctxOf, sctlrControls, ← hm, ← ht, ← hb, ← ho, ← ha, ← hc, ← hi, ← hw, ← hee]

/-- Settles O45: a barrier that is not SEQ's µop has its own effect only. -/
theorem barriersOutsideSeq : Obligations.BarriersOutsideSeq := by
  refine fun s => ⟨fun h => ?_, fun h => ?_, fun e c he hc h => ?_⟩
  · exact congrArg _ (barrier_of_cpu h _)
  · exact congrArg _ (barrier_of_cpu h _)
  · rw [eq_ctxOf_of_holds hc, ← isb_eq he]
    exact congrArg _ (barrier_of_cpu h _)

/-- A µop before u9 advances upc (42_sequencer.md R162). -/
theorem uopDone_of_ne_last {s : State} (h : s.upc ≠ 9) : s.uopDone = { s with upc := s.upc + 1 } := if_neg h

/-- u9 completes the ENABLE (R162). -/
theorem uopDone_of_last {s : State} (h : s.upc = 9) :
    s.uopDone = { s with busy := false, mode := .none, enabled := true, upc := 10 } := if_pos h

theorem upc_of_atMicroOp {s : State} {e : El} {n : Nat} (h : AtMicroOp s e n) : s.upc = BitVec.ofNat 4 n := by
  obtain ⟨-, -, -, hu, -⟩ := h
  rw [← hu, BitVec.ofNat_toNat, BitVec.setWidth_eq]

/-- The instruction of the micro-program at a running ENABLE's µop runs as that µop. -/
theorem seqRuns_of_atMicroOp {s : State} {e : El} {n : Nat} {i : Instr} (h : AtMicroOp s e n)
    (hi : (uopTable s.cfg.dsb1Scope e)[n]? = some i) : s.seqRuns i = true := by
  obtain ⟨hb, hm, -, hu, he⟩ := h
  exact seqRuns_of_uop hb hm hu he hi

/-- An ISB that is SEQ's µop copies the registers and completes the µop (R168, R172). -/
theorem exec_isb_of_atMicroOp {s : State} {e : El} {n : Nat} (h : AtMicroOp s e n)
    (hi : (uopTable s.cfg.dsb1Scope e)[n]? = some .isb) :
    exec .isb s = .next (State.uopDone { s with ctx := s.ctxOf e }) := by
  obtain ⟨-, -, -, -, he⟩ := id h
  rw [← isb_eq he]
  exact congrArg _ (barrier_of_uop (seqRuns_of_atMicroOp h hi) _)

/-- Settles O35: both ISBs of the micro-program, of which u9 is the last µop. -/
theorem microOpInstructionBarriers : Obligations.MicroOpInstructionBarriers := by
  intro s e c hc
  rw [eq_ctxOf_of_holds hc]
  refine ⟨fun h => ?_, fun h => ?_⟩
  · have hu := upc_of_atMicroOp h
    rw [exec_isb_of_atMicroOp h (by cases e <;> rfl), uopDone_of_ne_last (by simp [hu])]
    simp [hu]
  · exact (exec_isb_of_atMicroOp h (by cases e <;> rfl)).trans (congrArg _ (uopDone_of_last (upc_of_atMicroOp h)))

/-- Everything a barrier can do: a DSB or an ISB, as SEQ's µop or on its own (R162; 20_memory.md R69, R70). -/
theorem exec_barrier_cases {i : Instr} {s t : State} (hi : i = .dsbSy ∨ i = .dsbIsh ∨ i = .isb)
    (h : exec i s = .next t) :
    ∃ u, ((i ≠ .isb ∧ ∃ d, u = s.dsb d) ∨ (i = .isb ∧ u = s.isb)) ∧
      ((s.seqRuns i = true ∧ t = u.uopDone) ∨ (s.seqRuns i = false ∧ t = u)) := by
  have hb : ∀ f, barrier i f s = t →
      (s.seqRuns i = true ∧ t = (f s).uopDone) ∨ (s.seqRuns i = false ∧ t = f s) := by
    rintro f rfl
    cases hr : s.seqRuns i with
    | true => exact .inl ⟨rfl, barrier_of_uop hr f⟩
    | false => exact .inr ⟨rfl, barrier_of_cpu hr f⟩
  rcases hi with rfl | rfl | rfl
  · exact ⟨s.dsb .sy, .inl ⟨by decide, .sy, rfl⟩, hb _ (Host.Outcome.next.inj h)⟩
  · exact ⟨s.dsb .ish, .inl ⟨by decide, .ish, rfl⟩, hb _ (Host.Outcome.next.inj h)⟩
  · exact ⟨s.isb, .inr ⟨rfl, rfl⟩, hb _ (Host.Outcome.next.inj h)⟩

/-- Settles O50: the frames of dsb, isb and uopDone, in the four cases of a barrier. -/
theorem barrierFrame : Obligations.BarrierFrame := by
  intro i s t hi h
  refine ⟨noInstructionWritesMemory i s t h, ?_⟩
  obtain ⟨u, ⟨hn, d, rfl⟩ | ⟨rfl, rfl⟩, ⟨hr, rfl⟩ | ⟨hr, rfl⟩⟩ := exec_barrier_cases hi h
  · simp [hn, hr]
  · simp [hn, SameBlock]
  · simp [hr]
  · simp [SameBlock]

/-- An MSR row below its register's level, when it is not SEQ's µop (R73). -/
theorem exec_msr_below {s : State} {i : Instr} {u : Nat} {r : SysReg} {v : Word64} {rt : Nat}
    (hs : s.seqRuns i = false) (hl : s.curEl.val < minEl r)
    (hx : exec i s = if s.seqRuns i then .next (seqWrite u r v s) else cpuMsr r rt s) :
    exec i s = .fault .undefinedInstruction := by
  obtain ⟨hge, -⟩ | ⟨-, hf⟩ := cpuMsr_cases r rt s
  · omega
  · rw [hx, if_neg (Bool.eq_false_iff.1 hs), hf]

/-- An MRS row below its register's level, when it is not SEQ's µop (R73). -/
theorem exec_mrs_below {s : State} {i : Instr} {f : State → State} {r : SysReg} {rt : Nat}
    (hs : s.seqRuns i = false) (hl : s.curEl.val < minEl r)
    (hx : exec i s = if s.seqRuns i then .next (f s) else cpuMrs r rt s) :
    exec i s = .fault .undefinedInstruction := by
  obtain ⟨hge, -⟩ | ⟨-, hf⟩ := cpuMrs_cases r rt s
  · omega
  · rw [hx, if_neg (Bool.eq_false_iff.1 hs), hf]

/-- Settles O44: the eleven moves, by the level of their register. -/
theorem movesBelowTheirLevelAreUndefined : Obligations.MovesBelowTheirLevelAreUndefined := by
  intro s rt i hs h
  rcases h with ⟨hl, rfl | rfl | rfl | rfl | rfl⟩ | ⟨hl, rfl | rfl | rfl | rfl | rfl⟩ | ⟨hl, rfl⟩
  · exact exec_msr_below (r := .mair .el3) hs hl rfl
  · exact exec_msr_below (r := .tcr .el3) hs hl rfl
  · exact exec_msr_below (r := .ttbr0 .el3) hs hl rfl
  · exact exec_msr_below (r := .sctlr .el3) hs hl rfl
  · exact exec_mrs_below (r := .sctlr .el3) hs hl rfl
  · exact exec_msr_below (r := .mair .el2) hs hl rfl
  · exact exec_msr_below (r := .tcr .el2) hs hl rfl
  · exact exec_msr_below (r := .ttbr0 .el2) hs hl rfl
  · exact exec_msr_below (r := .sctlr .el2) hs hl rfl
  · exact exec_mrs_below (r := .sctlr .el2) hs hl rfl
  · exact exec_mrs_below (r := .idAa64mmfr0El1) hs hl rfl

end Sys2Proof

/-! ## INIT's bytes -/

namespace Sys2Proof

open Machine Claims

/-- An INIT step past the last entry answers no next state (log entry 16). -/
theorem ipc_lt_of_initStep {s t : State} (h : initStep s = .next t) : s.ipc.toNat < totalEntries := by
  by_contra hle
  simp only [initStep, if_pos (Nat.not_lt.1 hle)] at h
  cases h

/-- Byte k of a written doubleword stands k bytes above its address (20_memory.md R60). -/
theorem memRead_memWriteBytes_word (m : List Host.Cell) (a : Nat) (v : Word64) {k : Nat} (hk : k < 8) :
    memRead (memWriteBytes m a (bytesOfWord v)) (a + k) = some (byteOf v k) := by
  have hb : (bytesOfWord v)[k]'hk = byteOf v k := by interval_cases k <;> rfl
  rw [← hb]
  exact memRead_memWriteBytes_inside (bytesOfWord v) m a k hk

/-- Settles O26: the step is an accepted write of INIT, whose bytes are those of the entry in their order. -/
theorem descriptorsAreStoredLittleEndian : Obligations.DescriptorsAreStoredLittleEndian := by
  intro s t hin hb hm hc hp hs k hk
  rw [step_of_no_input hin, blockStep_build hb hm] at hs
  obtain ⟨-, hw⟩ | ⟨hrej, -⟩ := initStep_cases (ipc_lt_of_initStep hs) hc
  · rw [hw] at hs
    cases hs
    simp only [State.readByte, entryWritten_mem]
    exact memRead_memWriteBytes_word _ _ _ hk
  · exact absurd hrej hp

end Sys2Proof

/-! ## The end state of an ENABLE -/

namespace Sys2Proof

open Machine Claims

/-- A run whose steps lead along a sequence of states. -/
theorem run_of_steps {f : Nat → State} (n : Nat) (h : ∀ k, k < n → step (f k) = .next (f (k + 1))) :
    core.run n (f 0) = .next (f n) := by
  induction n generalizing f with
  | zero => rfl
  | succ n ih =>
    rw [run_succ_next n (h 0 (by omega))]
    exact ih (f := fun k => f (k + 1)) fun k hk => h (k + 1) (by omega)

/-- What µop n of the register set of level e leaves, an error entry included (42_sequencer.md R163 to R172). -/
def seqUop (e : El) (n : Nat) (s : State) : State :=
  match n with
  | 0 => seqWrite 0 (.mair e) mairVal s
  | 1 => seqReadMmfr0 s
  | 2 => seqWrite 2 (.tcr e) (tcrVal s.ps) s
  | 3 => seqWrite 3 (.ttbr0 e) (ttbrVal s.cfg.tableBase) s
  | 4 => (s.dsb s.cfg.dsb1Scope).uopDone
  | 5 => s.isb.uopDone
  | 6 => seqReadSctlr (.sctlr e) s
  | 7 => seqWrite 7 (.sctlr e) (sctlrVal s.tmp) s
  | 8 => (s.dsb .sy).uopDone
  | _ => s.isb.uopDone

/-- A data barrier that runs as SEQ's µop (R167). -/
theorem exec_dsbInstr_of_seqRuns {s : State} {d : DsbScope} (h : s.seqRuns (dsbInstr d) = true) :
    exec (dsbInstr d) s = .next (s.dsb d).uopDone := by
  cases d <;> exact congrArg _ (barrier_of_uop h _)

/-- An instruction that runs as SEQ's µop n does what that µop does. -/
theorem exec_eq_seqUop {s : State} {e : El} {n : Nat} {i : Instr} (hn : n < 10)
    (hi : (uopTable s.cfg.dsb1Scope e)[n]? = some i) (hr : s.seqRuns i = true) : exec i s = .next (seqUop e n s) := by
  match n with
  | 0 | 1 | 2 | 3 | 6 | 7 => cases e <;> cases hi <;> exact if_pos hr
  | 4 => cases e <;> cases hi <;> exact exec_dsbInstr_of_seqRuns hr
  | 5 | 8 | 9 => cases e <;> cases hi <;> exact congrArg _ (barrier_of_uop hr _)

/-- X0 and tmp hold the value a µop has read, and ps is given (R164, R169). -/
def loadTmp (v : Word64) (p : BitVec 3) (s : State) : State := { s.writeX 0 v with tmp := v, ps := p }

@[simp] theorem loadTmp_fields (v : Word64) (p : BitVec 3) (s : State) :
    (loadTmp v p s).tmp = v ∧ (loadTmp v p s).ps = p ∧ (loadTmp v p s).mem = s.mem ∧ (loadTmp v p s).built = s.built ∧
    (loadTmp v p s).err = s.err ∧ (loadTmp v p s).cfg = s.cfg ∧
    (loadTmp v p s).idAa64mmfr0El1 = s.idAa64mmfr0El1 := by
  simp [loadTmp]

@[simp] theorem loadTmp_sysReg (v : Word64) (p : BitVec 3) (s : State) (r : SysReg) :
    (loadTmp v p s).sysReg r = s.sysReg r := by
  rcases r with (_ | _) | (_ | _) | (_ | _) | (_ | _) | _ <;> rfl

/-- What µop n writes at a sufficient level and with a PARange that is not reserved, before it advances or completes the
ENABLE. -/
def uopEffect (e : El) (n : Nat) (s : State) : State :=
  match n with
  | 0 => (s.writeX 0 mairVal).setSysReg (.mair e) mairVal
  | 1 => loadTmp s.idAa64mmfr0El1 (s.idAa64mmfr0El1.extractLsb' 0 3) s
  | 2 => (s.writeX 0 (tcrVal s.ps)).setSysReg (.tcr e) (tcrVal s.ps)
  | 3 => (s.writeX 0 (ttbrVal s.cfg.tableBase)).setSysReg (.ttbr0 e) (ttbrVal s.cfg.tableBase)
  | 4 => s.dsb s.cfg.dsb1Scope
  | 5 => s.isb
  | 6 => loadTmp (s.sysReg (.sctlr e)) s.ps s
  | 7 => (s.writeX 0 (sctlrVal s.tmp)).setSysReg (.sctlr e) (sctlrVal s.tmp)
  | 8 => s.dsb .sy
  | _ => s.isb

theorem uopEffect_dataWrites (e : El) (n : Nat) (s : State) : DataWrites s (uopEffect e n s) := by
  unfold uopEffect
  split
  · exact .sysReg (.x .none 0 _) _ _
  · exact .ps (.tmp (.x .none 0 s.idAa64mmfr0El1) s.idAa64mmfr0El1) _
  · exact .sysReg (.x .none 0 _) _ _
  · exact .sysReg (.x .none 0 _) _ _
  · exact .dsb .none _
  · exact .isb .none
  · exact .tmp (.x .none 0 _) _
  · exact .sysReg (.x .none 0 _) _ _
  · exact .dsb .none _
  · exact .isb .none

/-- A register-writing µop at a sufficient level (R163, R165, R166, R170). -/
theorem seqWrite_of_level {r : SysReg} {s : State} (h : minEl r ≤ s.curEl.val) (u : Nat) (v : Word64) :
    seqWrite u r v s = ((s.writeX 0 v).setSysReg r v).uopDone := by
  obtain ⟨-, hw⟩ | ⟨hlt, -⟩ := seqWrite_cases u r v s
  · exact hw
  · omega

/-- µop u1 at a sufficient level and with a PARange that is not reserved (R164). -/
theorem seqReadMmfr0_of_level {s : State} (h : 1 ≤ s.curEl.val) (hp : paRange s.idAa64mmfr0El1 ≤ paRangeMax) (e : El) :
    seqReadMmfr0 s = (uopEffect e 1 s).uopDone := by
  obtain ⟨hlt, -⟩ | ⟨-, hlt, -⟩ | ⟨-, -, hr⟩ := seqReadMmfr0_cases s
  · omega
  · omega
  · exact hr

/-- µop u6 at a sufficient level (R169). -/
theorem seqReadSctlr_of_level {s : State} {e : El} (h : minEl (.sctlr e) ≤ s.curEl.val) :
    seqReadSctlr (.sctlr e) s = (uopEffect e 6 s).uopDone := by
  obtain ⟨hlt, -⟩ | ⟨-, hr⟩ := seqReadSctlr_cases (.sctlr e) s
  · omega
  · exact hr

/-- The port allows each of a level's registers from that level on (20_memory.md R73). -/
theorem minEl_of_isTarget {e : El} {r : SysReg} (h : IsTarget e r) : minEl r = levelOf e := by
  rcases h with rfl | rfl | rfl | rfl <;> cases e <;> rfl

/-- A µop that meets no error writes what it has to and advances or completes the ENABLE (R162). -/
theorem seqUop_of_level {s : State} {e : El} (hl : levelOf e ≤ s.curEl.val)
    (hp : paRange s.idAa64mmfr0El1 ≤ paRangeMax) {n : Nat} (hn : n < 10) : seqUop e n s = (uopEffect e n s).uopDone := by
  have ht : ∀ {r}, IsTarget e r → minEl r ≤ s.curEl.val := fun h => (minEl_of_isTarget h).trans_le hl
  match n with
  | 0 => exact seqWrite_of_level (ht (.inl rfl)) 0 _
  | 1 => exact seqReadMmfr0_of_level (by cases e <;> simp only [levelOf] at hl <;> omega) hp e
  | 2 => exact seqWrite_of_level (ht (.inr (.inl rfl))) 2 _
  | 3 => exact seqWrite_of_level (ht (.inr (.inr (.inl rfl)))) 3 _
  | 6 => exact seqReadSctlr_of_level (ht (.inr (.inr (.inr rfl))))
  | 7 => exact seqWrite_of_level (ht (.inr (.inr (.inr rfl)))) 7 _
  | 4 | 5 | 8 | 9 => rfl

/-- A running ENABLE that no error can stop: it stands before µop n with an empty schedule, at a sufficient level and with
a PARange that is not reserved. -/
structure Proceeds (s : State) (e : El) (n : Nat) : Prop where
  at_uop : AtMicroOp s e n
  inputs_nil : s.inputs = []
  level_le : levelOf e ≤ s.curEl.val
  paRange_le : paRange s.idAa64mmfr0El1 ≤ paRangeMax

/-- SEQ's step before µop n. -/
theorem Proceeds.step_eq {s : State} {e : El} {n : Nat} (h : Proceeds s e n) (hn : n < 10) :
    step s = .next (uopEffect e n s).uopDone := by
  obtain ⟨hb, hm, -, hu, he⟩ := h.at_uop
  obtain ⟨i, hi⟩ : ∃ i, (uopTable s.cfg.dsb1Scope e)[n]? = some i :=
    ⟨_, List.getElem?_eq_getElem (by rwa [uopTable_length])⟩
  rw [step_of_no_input h.inputs_nil, blockStep_enable hb hm, seqStep_of_uop (i := i) (by rw [uopInstr_eq he, hu, hi]),
    exec_eq_seqUop hn hi (seqRuns_of_atMicroOp h.at_uop hi), seqUop_of_level h.level_le h.paRange_le hn]

/-- Every µop but the last leaves the ENABLE before the next one (R162). -/
theorem Proceeds.next {s : State} {e : El} {n : Nat} (h : Proceeds s e n) (hn : n < 9) :
    Proceeds (uopEffect e n s).uopDone e (n + 1) := by
  obtain ⟨⟨hb, hm, hr, hu, he⟩, hin, hl, hp⟩ := h
  obtain ⟨hb', hm', -, -, hr', -, -, -, hu', hc'⟩ := dataWrites_sameControl (uopEffect_dataWrites e n s)
  obtain ⟨-, -, hid', hl', -, -, -, hin'⟩ := sameOutside_dataWrites (uopEffect_dataWrites e n s)
  have hne : (uopEffect e n s).upc ≠ 9 := by rw [hu']; bv_omega
  rw [uopDone_of_ne_last hne]
  refine ⟨⟨hb'.trans hb, hm'.trans hm, hr'.trans hr, ?_, by rwa [hc']⟩, hin'.trans hin, by rwa [hl'], by rwa [hid']⟩
  simp only [hu']
  bv_omega

/-- The states of a running ENABLE that no error stops, by the number of µops done. -/
def afterUops (e : El) (s : State) : Nat → State
  | 0 => s
  | n + 1 => (uopEffect e n (afterUops e s n)).uopDone

theorem Proceeds.after {s : State} {e : El} (h : Proceeds s e 0) {n : Nat} (hn : n < 10) :
    Proceeds (afterUops e s n) e n := by
  induction n with
  | zero => exact h
  | succ n ih => exact (ih (by omega)).next (by omega)

/-- Ten steps complete an ENABLE that no error stops (R161, R173). -/
theorem Proceeds.run_ten {s : State} {e : El} (h : Proceeds s e 0) : core.run 10 s = .next (afterUops e s 10) :=
  run_of_steps (f := afterUops e s) 10 fun _ hk => (h.after hk).step_eq hk

/-- The registers of the level after an ENABLE that no error stops (R173). -/
theorem afterUops_ten_sysReg (e : El) (s : State) :
    (afterUops e s 10).sysReg (.mair e) = mairVal ∧
    (afterUops e s 10).sysReg (.tcr e) = tcrVal (s.idAa64mmfr0El1.extractLsb' 0 3) ∧
    (afterUops e s 10).sysReg (.ttbr0 e) = ttbrVal s.cfg.tableBase ∧
    (afterUops e s 10).sysReg (.sctlr e) = sctlrVal (s.sysReg (.sctlr e)) := by
  cases e <;> simp [afterUops, uopEffect, setSysReg_sysReg_other]

/-- What no µop writes. -/
theorem afterUops_ten_frame (e : El) (s : State) :
    (afterUops e s 10).mem = s.mem ∧ (afterUops e s 10).built = s.built ∧ (afterUops e s 10).err = s.err := by
  simp [afterUops, uopEffect]

/-- u8 leaves walker_sync set and u9 the context at the registers (R171, R172). -/
theorem Proceeds.afterUops_ten_ctx {s : State} {e : El} (h : Proceeds s e 0) :
    (afterUops e s 10).ctx = (afterUops e s 10).ctxOf e ∧
    (afterUops e s 10).walkerSync = true := by
  obtain ⟨-, -, -, -, he⟩ := (h.after (n := 9) (by decide)).at_uop
  refine ⟨?_, by simp [afterUops, uopEffect]⟩
  calc (afterUops e s 10).ctx = (afterUops e s 9).isb.ctx := uopDone_ctx _
    _ = (afterUops e s 9).ctxOf e := isb_ctx he
    _ = (afterUops e s 10).ctxOf e := by
      apply ctxOf_congr <;> simp [afterUops.eq_def e s 10, uopEffect]

/-- u9 completes the ENABLE (R162). -/
theorem Proceeds.afterUops_ten_control {s : State} {e : El} (h : Proceeds s e 0) :
    (afterUops e s 10).enabled = true ∧ (afterUops e s 10).busy = false ∧
    (afterUops e s 10).mode = .none ∧ (afterUops e s 10).upc = 10 := by
  have hu : (afterUops e s 9).isb.upc = 9 :=
    (isb_upc _).trans (upc_of_atMicroOp (h.after (n := 9) (by decide)).at_uop)
  have ht : afterUops e s 10 = _ := uopDone_of_last hu
  rw [ht]
  exact ⟨rfl, rfl, rfl, rfl⟩

/-- An ENABLE that R202 accepts (R160). -/
theorem exec_enable_of_accepted {s : State} (hi : Idle s) (hb : s.built = true) (hn : s.enabled = false)
    (hc : ConfigLegal s.cfg) : exec .enable s = .next (startEnable s) := by
  obtain ⟨he, hbusy⟩ := hi
  have ha : acceptError (encode .enable) { oneShot := true, needsBuilt := true, page := none } s = none :=
    (acceptError_none_iff _ _ s).2 ⟨hbusy, fun _ => hn, fun _ => hb, hc, fun _ h => nomatch h⟩
  simp only [exec, execEnable, accept, he, ha, Bool.false_eq_true, if_false]

/-- TCR_VAL with the PS of a PARange, by the bits of ID_AA64MMFR0_EL1 (10_state.md R42 to R44). -/
theorem tcrVal_extractLsb (v : Word64) :
    tcrVal (v.extractLsb' 0 3) = (0x0000000080807520 : Word64) ||| (BitVec.ofNat 64 (bits v 2 0) <<< 16) := by
  have hb : (v.extractLsb' 0 3).setWidth 64 = BitVec.ofNat 64 (bits v 2 0) := by
    apply BitVec.eq_of_toNat_eq
    simp [bits]
  rw [tcrVal, hb, tcrBase]

/-- µop u7 sets M (10_state.md R48). -/
theorem sctlrVal_on (tmp : Word64) : (sctlrVal tmp).getLsbD 0 = true := getLsbD_sctlrVal tmp (by decide)

/-- Settles O40: the acceptance step, then the ten µops, whose last one completes the ENABLE. -/
theorem enableCompletesWithTheEndState : Obligations.EnableCompletesWithTheEndState := by
  intro s e hi hb hn hc hin he hl hp
  have hs : step s = .next (startEnable { s with inputs := [] }) :=
    (step_of_command hin (by decide)).trans (exec_enable_of_accepted hi hb hn hc)
  have h : Proceeds (startEnable { s with inputs := [] }) e 0 := ⟨⟨rfl, rfl, hi.1, rfl, he⟩, rfl, hl, hp⟩
  obtain ⟨hmair, htcr, httbr0, hsctlr⟩ := afterUops_ten_sysReg e (startEnable { s with inputs := [] })
  obtain ⟨hmem, hbuilt, herr⟩ := afterUops_ten_frame e (startEnable { s with inputs := [] })
  obtain ⟨hctx, hsync⟩ := h.afterUops_ten_ctx
  obtain ⟨hen, hbusy, hmode, hupc⟩ := h.afterUops_ten_control
  have hold : (startEnable { s with inputs := [] }).sysReg (.sctlr e) = s.sysReg (.sctlr e) := by cases e <;> rfl
  rw [hold] at hsctlr
  refine ⟨_, (run_succ_next 10 hs).trans h.run_ten, hmair, htcr.trans (tcrVal_extractLsb _), httbr0, hsctlr, hctx, ?_,
    hsync, hen, hbuilt.trans hb, hbusy, hmode, hupc, herr.trans hi.1, fun a => congrArg (memRead · a) hmem⟩
  rw [hctx, ctxOf_mmuOn, hsctlr, sctlrVal_on]

end Sys2Proof

/-! ## The consumer after an ENABLE -/

namespace Sys2Proof

open Machine Claims

/-- The context an ENABLE leaves in effect (42_sequencer.md R173; the SCTLR bits beyond M: log entry 24). -/
def enabledCtx (s : State) : Ctx where
  mmuOn := true
  mair := mairVal
  tcr := tcrVal s.ps
  ttbr0 := ttbrVal s.cfg.tableBase
  ctl := { a := false, c := true, i := true, wxn := false, ee := false }

/-- The other bits of SCTLR that govern an access, as µop u7 leaves them (R48). -/
theorem sctlrControls_sctlrVal (tmp : Word64) :
    sctlrControls (sctlrVal tmp) = { a := false, c := true, i := true, wxn := false, ee := false } := by
  simp (disch := omega) [sctlrControls, getLsbD_sctlrVal, -BitVec.getLsbD_eq_getElem]

/-- After an ENABLE the context in effect and the registers agree, and both are what its µops wrote. -/
theorem ctx_of_enabledAt {s : State} {e : El} (h : EnabledAt s e) : s.ctx = s.ctxOf e ∧ s.ctx = enabledCtx s := by
  obtain ⟨⟨-, -, hq⟩, hen, -, -, he⟩ := h
  have hd := hq.enabled hen e he
  have hall := hd.ctxAll (by decide)
  refine ⟨hall, hall.trans ?_⟩
  simp only [State.ctxOf, hd.sctlr (by decide), hd.mair (by decide), hd.tcr (by decide), hd.ttbr0 (by decide),
    sctlrVal_on, sctlrControls_sctlrVal, enabledCtx]

/-- An enabled machine uses one context (20_memory.md R72). -/
theorem mmuAccess_of_enabledAt {s : State} {e : El} (h : EnabledAt s e) (a : Access) :
    mmuAccess s a = accessUnder s (enabledCtx s) e a := by
  obtain ⟨hc, hcx⟩ := ctx_of_enabledAt h
  obtain ⟨-, -, hel, -, he⟩ := h
  rw [mmuAccess_of_synced he hel hc, hcx]

/-- An access of an enabled machine whose pieces all have a translation: its data are little-endian (20_memory.md R61,
R72). -/
theorem mmuAccess_enabled_ok {s : State} {e : El} (h : EnabledAt s e) {a : Access} {ts : List Translation}
    (ht : translatePieces s (enabledCtx s) e a 0 a.pages = .ok ts) :
    mmuAccess s a = .ok (if a.kind = .fetch then none else some .little) ts := by
  have ho : (enabledCtx s).ctl.dataOrder a.kind = if a.kind = .fetch then none else some .little := by
    cases a.kind <;> rfl
  have hon : ¬¬(enabledCtx s).mmuOn = true := not_not.2 rfl
  rw [mmuAccess_of_enabledAt h, accessUnder, if_neg hon, ht, ho]

/-- An access of an enabled machine with a piece that has none (R72). -/
theorem mmuAccess_enabled_error {s : State} {e : El} (h : EnabledAt s e) {a : Access} {r : MmuStop}
    (ht : translatePieces s (enabledCtx s) e a 0 a.pages = .error r) : mmuAccess s a = .stop r := by
  have hon : ¬¬(enabledCtx s).mmuOn = true := not_not.2 rfl
  rw [mmuAccess_of_enabledAt h, accessUnder, if_neg hon, ht]

/-- PS of an enabled machine names a physical address size of 32 bits at least (10_state.md R44). -/
theorem paBits_tcrPs {ps : BitVec 3} (hp : ps.toNat ≤ 6) : ∃ n, paBits (tcrPs (tcrVal ps)) = some n ∧ 32 ≤ n := by
  have hps : tcrPs (tcrVal ps) = ps.toNat := by simp only [tcrPs, bits, tcrVal_toNat]; omega
  rw [hps]
  interval_cases ps.toNat <;> exact ⟨_, rfl, by decide⟩

/-- The granule and the size that TCR_BASE selects (20_memory.md R77). -/
theorem tcrVal_scheme (ps : BitVec 3) : tcrTg0 (tcrVal ps) = 0b01 ∧ tcrT0sz (tcrVal ps) = 32 := by
  have hp := ps.isLt
  simp only [tcrTg0, tcrT0sz, bits, tcrVal_toNat]
  omega

/-- Bit 0 of TTBR_VAL adds to the aligned base (10_state.md R46). -/
theorem ttbrVal_toNat {c : Config} (h : ConfigLegal c) : (ttbrVal c.tableBase).toNat = c.tableBase.toNat + 1 := by
  obtain ⟨h1, -⟩ := tableBase_of_legal h
  have ho : c.tableBase.toNat = c.tableBase.toNat / 2 * 2 ^ 1 := by omega
  have hone : (1 : Word64).toNat = 1 := rfl
  rw [ttbrVal, BitVec.toNat_or, hone, ho, or_low_eq_add (by decide)]

/-- The two fields of a table descriptor that the walk reads (40_encoder.md R111, R115). -/
theorem bits_encTableDesc {c : Config} (h : ConfigLegal c) {k : Nat} (hk : k < 9) :
    bits (encTableDesc c k) 1 0 = 0b11 ∧
    bits (encTableDesc c k) 47 16 * 2 ^ 16 = c.tableBase.toNat + 0x10000 * (k + 1) := by
  obtain ⟨h1, h2⟩ := tableBase_of_legal h
  simp only [bits, encTableDesc_toNat h hk]
  omega

/-- A walk that reads a table descriptor at level 2 ends at the descriptor it reads at level 3 (20_memory.md R78). -/
theorem walkTables_of_reads {s : State} {c : Ctx} {va d2 d3 : Word64} (e : El) (a : Access)
    (h2 : s.readWord (bits c.ttbr0 47 1 * 2 + 8 * bits va 31 29) = some d2) (ht : bits d2 1 0 = 0b11)
    (h3 : s.readWord (bits d2 47 16 * 2 ^ 16 + 8 * bits va 28 16) = some d3) :
    walkTables s c e a va = pageResult c e a va d3 := by
  have hvalid : ¬d2.getLsbD 0 = false := by
    rw [getLsbD_eq_bits, decide_eq_false_iff_not, not_not]
    simp only [bits] at ht ⊢
    omega
  have hblock : ¬bits d2 1 0 = 0b01 := by omega
  simp only [walkTables, h2, h3, if_neg hvalid, if_neg hblock]

/-- The walk of an enabled machine for an address below 4 GiB ends at the leaf entry of the address's page (R77, R78). -/
theorem walkTables_enabled {s : State} (hc : ConfigLegal s.cfg) (ht : TablesHeld s) (e : El) (a : Access) {va : Word64}
    (hva : va.toNat < 2 ^ 32) :
    walkTables s (enabledCtx s) e a va = pageResult (enabledCtx s) e a va (encLeaf s.cfg (va.toNat / 2 ^ 16)) := by
  obtain ⟨h1, h2⟩ := tableBase_of_legal hc
  obtain ⟨hroot, hleaf⟩ := ht
  have hr : bits va 31 29 < 8 := bits_lt va 31 29
  obtain ⟨hvalid, hnext⟩ := bits_encTableDesc hc (k := bits va 31 29) (by omega)
  refine walkTables_of_reads e a (d2 := encTableDesc s.cfg (bits va 31 29)) ?_ hvalid ?_
  · have hb : bits (enabledCtx s).ttbr0 47 1 * 2 = s.cfg.tableBase.toNat := by
      simp only [enabledCtx, bits, ttbrVal_toNat hc]
      omega
    rw [hb, hroot _ (show bits va 31 29 < 8192 by omega), encRoot, if_pos (show bits va 31 29 < 9 by omega)]
  · have ha : s.cfg.tableBase.toNat + 0x10000 * (bits va 31 29 + 1) + 8 * bits va 28 16 =
        s.cfg.tableBase.toNat + 0x10000 + 8 * (va.toNat / 2 ^ 16) := by
      simp only [bits]
      omega
    rw [hnext, ha, hleaf _ (show va.toNat / 2 ^ 16 < 73728 by omega)]

/-- What a leaf entry gives the walk, by its class (40_encoder.md R112, R116, R117). -/
theorem bits_encLeaf (c : Config) {g : Nat} (hg : g < 2 ^ 32) :
    bits (encLeaf c g) 47 16 = g ∧ bits (encLeaf c g) 1 0 = 0b11 ∧ bits (encLeaf c g) 10 10 = 1 ∧
    bits (encLeaf c g) 7 6 = 0b01 ∧
    bits (encLeaf c g) 4 2 = (if classOf c g = .dev then 1 else 0) ∧
    bits (encLeaf c g) 9 8 = (if classOf c g = .dev then 0b10 else 0b11) ∧
    bits (encLeaf c g) 54 54 = (if classOf c g = .dev then 1 else 0) ∧
    bits (encLeaf c g) 5 5 = (if classOf c g = .dev then c.variant.devNs.toNat else 0) := by
  have hns := Bool.toNat_le c.variant.devNs
  obtain ⟨hcl, hd⟩ | ⟨hcl, hd⟩ := encLeaf_cases c hg
  · simp only [hcl, bits, hd, reduceCtorEq, if_false]
    omega
  · simp only [hcl, bits, hd, if_true]
    omega

/-- With C and I set the memory type is MAIR's, which MAIR_VAL gives for both classes of pages (10_state.md R41, R47). -/
theorem memType_enabled (s : State) (e : El) (k : AccessKind) {g : Nat} (hg : g < 2 ^ 32) (va : Word64) :
    (pageTranslation (enabledCtx s) e k (encLeaf s.cfg g) va).memType =
      if classOf s.cfg g = .dev then .deviceNGnRE else .normalWriteBack := by
  obtain ⟨-, -, -, -, hattr, -⟩ := bits_encLeaf s.cfg hg
  have hf : ¬(enabledCtx s).ctl.forcesNonCacheable k = true := by simp [forcesNonCacheable_iff, enabledCtx]
  have hdev : memTypeOf (mairAttr mairVal 1) = .deviceNGnRE := by decide
  have hram : memTypeOf (mairAttr mairVal 0) = .normalWriteBack := by decide
  rw [pageTranslation_memType, if_neg hf, hattr]
  split_ifs
  · exact hdev
  · exact hram

/-- A leaf entry translates an address of its page to itself, with what its class gives (R78, R79). -/
theorem pageTranslation_enabled (s : State) (e : El) (k : AccessKind) {va : Word64} (hva : va.toNat < 2 ^ 32) :
    pageTranslation (enabledCtx s) e k (encLeaf s.cfg (va.toNat / 2 ^ 16)) va =
      windowTranslation s.cfg e (va.toNat / 2 ^ 16) va.toNat := by
  have hg : va.toNat / 2 ^ 16 < 2 ^ 32 := by omega
  obtain ⟨hpa, -, -, -, -, hsh, hxn, hns⟩ := bits_encLeaf s.cfg hg
  have hmem := memType_enabled s e k hg va
  have hout : outputAddress (encLeaf s.cfg (va.toNat / 2 ^ 16)) va = va.toNat := by
    rw [outputAddress, hpa]
    simp only [bits]
    omega
  simp only [pageTranslation, windowTranslation, Translation.mk.injEq, getLsbD_eq_bits] at hmem ⊢
  refine ⟨hout, hmem, hsh, ?_, ?_⟩
  · rw [hxn]
    cases classOf s.cfg (va.toNat / 2 ^ 16) <;> rfl
  · rw [hns]
    cases e <;> cases classOf s.cfg (va.toNat / 2 ^ 16) <;> simp

/-- With A = 0 an unaligned access faults on a device page only (70_reset_and_hazards.md R243). -/
theorem alignmentResult_enabled (s : State) (e : El) (a : Access) (g pa : Nat) :
    alignmentResult (enabledCtx s) a (windowTranslation s.cfg e g pa) =
      if a.unaligned = true ∧ classOf s.cfg g = .dev then .error (.fault .alignment)
      else .ok (windowTranslation s.cfg e g pa) := by
  by_cases hu : a.unaligned = true
  · cases hg : classOf s.cfg g <;> simp [alignmentResult, hu, hg, enabledCtx, windowTranslation, MemType.isDevice]
  · simp [alignmentResult, hu]

/-- What the checks on a leaf entry answer: a device page refuses fetches and unaligned data accesses (R78 to R80,
R243). -/
theorem pageResult_enabled {s : State} (hps : s.ps.toNat ≤ 6) (e : El) (a : Access) {va : Word64}
    (hva : va.toNat < 2 ^ 32) :
    pageResult (enabledCtx s) e a va (encLeaf s.cfg (va.toNat / 2 ^ 16)) =
      if a.kind = .fetch ∧ classOf s.cfg (va.toNat / 2 ^ 16) = .dev then .error (.fault .permission)
      else if a.unaligned = true ∧ classOf s.cfg (va.toNat / 2 ^ 16) = .dev then .error (.fault .alignment)
      else .ok (windowTranslation s.cfg e (va.toNat / 2 ^ 16) va.toNat) := by
  obtain ⟨-, hvalid, haf, hap, -⟩ := bits_encLeaf s.cfg (g := va.toNat / 2 ^ 16) (by omega)
  obtain ⟨n, hn, hn32⟩ := paBits_tcrPs hps
  have hpow : 2 ^ 32 ≤ 2 ^ n := Nat.pow_le_pow_right (by decide) hn32
  have haf' : ¬(encLeaf s.cfg (va.toNat / 2 ^ 16)).getLsbD 10 = false := by rw [getLsbD_eq_bits, haf]; decide
  have hsize : ¬2 ^ n ≤ (windowTranslation s.cfg e (va.toNat / 2 ^ 16) va.toNat).pa := by
    simp only [windowTranslation]
    omega
  have hn' : paBits (tcrPs (enabledCtx s).tcr) = some n := hn
  simp only [pageResult, pageTranslation_enabled s e a.kind hva, hvalid, hap, hn', if_neg haf', if_neg hsize,
    alignmentResult_enabled]
  simp [windowTranslation, enabledCtx]

/-- The translation of a piece below 4 GiB, by the class of its page (R77 to R80; R61, R71). -/
theorem translatePiece_enabled {s : State} {e : El} (h : EnabledAt s e) (a : Access) {va : Word64}
    (hva : va.toNat < 2 ^ 32) :
    translatePiece s (enabledCtx s) e a va =
      if a.kind = .fetch ∧ classOf s.cfg (va.toNat / 2 ^ 16) = .dev then .error (.fault .permission)
      else if a.unaligned = true ∧ classOf s.cfg (va.toNat / 2 ^ 16) = .dev then .error (.fault .alignment)
      else .ok (windowTranslation s.cfg e (va.toNat / 2 ^ 16) va.toNat) := by
  obtain ⟨⟨hc, ht, hq⟩, hen, -, ⟨htlb, hcache⟩, he⟩ := h
  have hd := hq.enabled hen e he
  have hb : s.built = true := (hc.enabled_all hen).1
  have hps : s.ps.toNat ≤ 6 := by
    obtain ⟨hle, hp⟩ := hd.paRange (by decide)
    simp only [paRange, bits, paRangeMax] at hle
    rw [hp, BitVec.extractLsb'_toNat, Nat.shiftRight_eq_div_pow]
    omega
  have hscheme : tcrTg0 (enabledCtx s).tcr = 0b01 ∧ tcrT0sz (enabledCtx s).tcr = 32 := tcrVal_scheme s.ps
  have hrange : bits va 63 32 = 0 := by simp only [bits]; omega
  rw [← pageResult_enabled hps e a hva,
    ← walkTables_enabled (hc.built_all hb).2 (tablesHeld_of_entries (ht.built hb)) e a hva, translatePiece,
    if_neg (not_not.2 hscheme), if_neg (not_not.2 hrange), if_neg (not_not.2 ⟨htlb, hcache⟩),
    if_neg (not_not.2 (hd.synced (by decide)))]
  rfl

/-- A piece below 4 GiB in a page that its access may touch is translated to itself. -/
theorem translatePiece_ok {s : State} {e : El} (h : EnabledAt s e) {a : Access} {va : Word64} {g : Nat}
    (hva : va.toNat < 2 ^ 32) (hg : va.toNat / 2 ^ 16 = g)
    (hp : classOf s.cfg g = .dev → a.kind ≠ .fetch ∧ a.unaligned = false) :
    translatePiece s (enabledCtx s) e a va = .ok (windowTranslation s.cfg e g va.toNat) := by
  subst hg
  rw [translatePiece_enabled h a hva, if_neg fun ⟨hk, hd⟩ => (hp hd).1 hk, if_neg]
  rintro ⟨hu, hd⟩
  exact Bool.noConfusion ((hp hd).2.symm.trans hu)

/-- The address of an access's k-th piece, in the access's k-th page (log entry 25). -/
theorem piece_toNat (a : Access) {k : Nat} (hk : a.page k < 2 ^ 16) :
    (a.piece k).toNat = (if k = 0 then a.va.toNat else a.page k * 2 ^ 16) ∧ (a.piece k).toNat < 2 ^ 32 ∧
      (a.piece k).toNat / 2 ^ 16 = a.page k := by
  cases k with
  | zero =>
    have hp : a.page 0 = a.va.toNat / 2 ^ 16 := rfl
    exact ⟨rfl, show a.va.toNat < 2 ^ 32 by omega, hp.symm⟩
  | succ k =>
    have ht : (a.piece (k + 1)).toNat = a.page (k + 1) * 2 ^ 16 := by
      simp only [Access.piece, BitVec.toNat_ofNat, pageSize]
      omega
    rw [ht]
    exact ⟨rfl, by omega, by omega⟩

/-- An access whose bytes lie below 4 GiB touches pages below 4 GiB. -/
theorem page_lt {a : Access} (ha : a.va.toNat + (a.size - 1) < 2 ^ 32) {k : Nat} (hk : k < a.pages) :
    a.page k < 2 ^ 16 := by
  simp only [Access.pages, Access.page, pageSize] at hk ⊢
  omega

/-- Settles O57: each piece is translated to itself, and the context's EE is 0. -/
theorem enabledMmuMapsEveryAddressToItself : Obligations.EnabledMmuMapsEveryAddressToItself := by
  intro s e a h ha hp
  have hok : ∀ k, 0 ≤ k → k < 0 + a.pages → translatePiece s (enabledCtx s) e a (a.piece k) =
      .ok (windowTranslation s.cfg e (a.page k) (if k = 0 then a.va.toNat else a.page k * 2 ^ 16)) := by
    intro k _ hk
    rw [Nat.zero_add] at hk
    obtain ⟨hv, hlt, hg⟩ := piece_toNat a (page_lt ha hk)
    rw [translatePiece_ok h hlt hg fun hd => hp ⟨k, hk, page_lt ha hk, hd⟩, hv]
  refine ⟨_, mmuAccess_enabled_ok h (translatePieces_ok _ hok), by simp, fun k t ht => ?_⟩
  obtain ⟨hk, rfl⟩ := List.getElem?_eq_some_iff.1 ht
  simp

/-- The first device page an access touches decides it, if its piece there gets a fault. -/
theorem mmuAccess_of_first_device {s : State} {e : El} {a : Access} (h : EnabledAt s e) (ht : TouchesDevice s.cfg a)
    {f : MmuFault} (hf : ∀ va : Word64, va.toNat < 2 ^ 32 → classOf s.cfg (va.toNat / 2 ^ 16) = .dev →
      translatePiece s (enabledCtx s) e a va = .error (.fault f)) : mmuAccess s a = .stop (.fault f) := by
  classical
  obtain ⟨j, ⟨hj, hlt, hd⟩, hfirst⟩ : ∃ j, (j < a.pages ∧ a.page j < 2 ^ 16 ∧ classOf s.cfg (a.page j) = .dev) ∧
      ∀ i, i < j → ¬(i < a.pages ∧ a.page i < 2 ^ 16 ∧ classOf s.cfg (a.page i) = .dev) :=
    ⟨Nat.find ht, Nat.find_spec ht, fun _ => Nat.find_min ht⟩
  obtain ⟨-, hva, hg⟩ := piece_toNat a hlt
  have hbefore : ∀ i, 0 ≤ i → i < j → ∃ t, translatePiece s (enabledCtx s) e a (a.piece i) = .ok t := by
    intro i _ hi
    have hpage : a.page i < 2 ^ 16 := by simp only [Access.page] at hlt ⊢; omega
    obtain ⟨-, hvi, hgi⟩ := piece_toNat a hpage
    exact ⟨_, translatePiece_ok h hvi hgi fun hdi => absurd ⟨by omega, hpage, hdi⟩ (hfirst i hi)⟩
  exact mmuAccess_enabled_error h
    (translatePieces_error (Nat.zero_le j) (by omega) hbefore (hf _ hva (hg.symm ▸ hd)))

/-- Settles O59: both faults of a device page, at the first one the access touches. -/
theorem enabledMmuFaultsOnDevicePages : Obligations.EnabledMmuFaultsOnDevicePages := by
  intro s e a h ht
  refine ⟨fun hk => mmuAccess_of_first_device h ht fun va hva hd => ?_,
    fun hu => mmuAccess_of_first_device h ht fun va hva hd => ?_⟩
  · rw [translatePiece_enabled h a hva, if_pos ⟨hk, hd⟩]
  · have hk : a.kind ≠ .fetch := by
      intro hk
      simp [Access.unaligned, hk] at hu
    rw [translatePiece_enabled h a hva, if_neg fun hf => hk hf.1, if_pos ⟨hu, hd⟩]

end Sys2Proof

/-! ## The two encodings -/

namespace Sys2Proof

open Machine Claims

/-! ### HOSTCMD words -/

/-- A word decodes as a command exactly if it has the command's OP and its reserved bits are 0 (30_encoding.md R92 to
R94). -/
theorem decodeCommand_ok_iff {w : Word32} {i : Instr} :
    decodeCommand w = .ok i ↔
      (bits w 31 28 = 1 ∧ bits w 27 0 = 0 ∧ i = .build) ∨ (bits w 31 28 = 2 ∧ bits w 27 0 = 0 ∧ i = .enable) ∨
      (bits w 31 28 = 3 ∧ bits w 27 13 = 0 ∧ i = .encTable (bits w 12 0)) ∨
      (bits w 31 28 = 4 ∧ bits w 27 17 = 0 ∧ i = .encPage (bits w 16 0)) := by
  refine ⟨decodeCommand_cases, ?_⟩
  rintro (⟨ho, hz, rfl⟩ | ⟨ho, hz, rfl⟩ | ⟨ho, hz, rfl⟩ | ⟨ho, hz, rfl⟩) <;> simp [decodeCommand, ho, hz]

/-- OP and ARG by their weights (R91). -/
theorem commandWord_toNat {op arg : Nat} (ho : op < 2 ^ 4) (ha : arg < 2 ^ 28) :
    (commandWord op arg).toNat = op * 2 ^ 28 + arg := by
  rw [commandWord, BitVec.toNat_ofNat]
  omega

/-- A word is put together from its OP and ARG (R91). -/
theorem commandWord_bits (w : Word32) : commandWord (bits w 31 28) (bits w 27 0) = w := by
  have hw := w.isLt
  apply BitVec.eq_of_toNat_eq
  rw [commandWord_toNat (bits_lt w 31 28) (bits_lt w 27 0)]
  simp only [bits]
  omega

/-- ARG is its operand field where the reserved bits above it are 0 (R93). -/
theorem bits_arg_eq {w : Word32} :
    (bits w 27 13 = 0 → bits w 27 0 = bits w 12 0) ∧ (bits w 27 17 = 0 → bits w 27 0 = bits w 16 0) := by
  simp only [bits]
  omega

/-- No bit of a command word is ignored (R94). -/
theorem encode_of_decodeCommand {w : Word32} {i : Instr} (h : decodeCommand w = .ok i) : encode i = w := by
  obtain ⟨hslot, hpage⟩ := bits_arg_eq (w := w)
  obtain ⟨ho, hz, rfl⟩ | ⟨ho, hz, rfl⟩ | ⟨ho, hz, rfl⟩ | ⟨ho, hz, rfl⟩ := decodeCommand_cases h
  · rw [encode, ← ho, ← hz, commandWord_bits]
  · rw [encode, ← ho, ← hz, commandWord_bits]
  · rw [encode, ← ho, ← hslot hz, commandWord_bits]
  · rw [encode, ← ho, ← hpage hz, commandWord_bits]

/-- ENC.TABLE of a slot that fits its field (R93). -/
theorem decodeCommand_encTable {slot : Nat} (h : slot < 2 ^ 13) :
    decodeCommand (commandWord 3 slot) = .ok (.encTable slot) := by
  have hf : bits (commandWord 3 slot) 31 28 = 3 ∧ bits (commandWord 3 slot) 27 13 = 0 ∧
      bits (commandWord 3 slot) 12 0 = slot := by
    simp only [bits, commandWord_toNat (show 3 < 2 ^ 4 by decide) (show slot < 2 ^ 28 by omega)]
    omega
  obtain ⟨ho, hz, hs⟩ := hf
  exact decodeCommand_ok_iff.2 (.inr (.inr (.inl ⟨ho, hz, by rw [hs]⟩)))

/-- ENC.PAGE of an index that fits its field (R93). -/
theorem decodeCommand_encPage {g : Nat} (h : g < 2 ^ 17) : decodeCommand (commandWord 4 g) = .ok (.encPage g) := by
  have hf : bits (commandWord 4 g) 31 28 = 4 ∧ bits (commandWord 4 g) 27 17 = 0 ∧ bits (commandWord 4 g) 16 0 = g := by
    simp only [bits, commandWord_toNat (show 4 < 2 ^ 4 by decide) (show g < 2 ^ 28 by omega)]
    omega
  obtain ⟨ho, hz, hg⟩ := hf
  exact decodeCommand_ok_iff.2 (.inr (.inr (.inr ⟨ho, hz, by rw [hg]⟩)))

/-! ### A64-SYS words -/

/-- Every code of R96 fits the fields of a move. -/
theorem sysRegCode_lt (r : SysReg) :
    2 ≤ (sysRegCode r).op0 ∧ (sysRegCode r).op0 < 4 ∧ (sysRegCode r).op1 < 8 ∧ (sysRegCode r).crn < 16 ∧
    (sysRegCode r).crm < 16 ∧ (sysRegCode r).op2 < 8 := by
  rcases r with (_ | _) | (_ | _) | (_ | _) | (_ | _) | _ <;> decide

/-- No two registers of R96 have one code. -/
theorem sysRegOfCode_sysRegCode (r : SysReg) : sysRegOfCode (sysRegCode r) = some r := by
  rcases r with (_ | _) | (_ | _) | (_ | _) | (_ | _) | _ <;> decide

theorem sysRegCode_of_sysRegOfCode {c : SysRegCode} {r : SysReg} (h : sysRegOfCode c = some r) : sysRegCode r = c := by
  simpa using List.find?_some h

/-- A move of X0, by the weights of its fields (R95, R96). -/
theorem moveWord_zero_toNat {l : Nat} (hl : l < 2) (r : SysReg) :
    (moveWord l r 0).toNat =
      (0b1101010100 * 2 ^ 17 + l * 2 ^ 16 + 2 ^ 15 + ((sysRegCode r).op0 - 2) * 2 ^ 14 + (sysRegCode r).op1 * 2 ^ 11 +
        (sysRegCode r).crn * 2 ^ 7 + (sysRegCode r).crm * 2 ^ 3 + (sysRegCode r).op2) * 2 ^ 5 := by
  interval_cases l <;> rcases r with (_ | _) | (_ | _) | (_ | _) | (_ | _) | _ <;> rfl

/-- The register number stands below the other fields of a move (R95). -/
theorem moveWord_toNat {l rt : Nat} (hl : l < 2) (r : SysReg) (hr : rt < 2 ^ 5) :
    (moveWord l r rt).toNat = (moveWord l r 0).toNat + rt := by
  have hw : moveWord l r rt = moveWord l r 0 ||| BitVec.ofNat 32 rt := by
    simp only [moveWord, BitVec.or_zero]
  rw [hw, BitVec.toNat_or, BitVec.toNat_ofNat, Nat.mod_eq_of_lt (by omega), moveWord_zero_toNat hl, or_low_eq_add hr]

/-- The tuple of system-register fields that a word holds (R95). -/
def moveCode (w : Word32) : SysRegCode where
  op0 := bits w 19 19 + 2
  op1 := bits w 18 16
  crn := bits w 15 12
  crm := bits w 11 8
  op2 := bits w 7 5

/-- The fixed bits of a move, L and Rt (R95). -/
theorem bits_moveWord {l rt : Nat} (hl : l < 2) (r : SysReg) (hr : rt < 2 ^ 5) :
    bits (moveWord l r rt) 31 22 = 0b1101010100 ∧ bits (moveWord l r rt) 21 21 = l ∧
    bits (moveWord l r rt) 20 20 = 1 ∧ bits (moveWord l r rt) 4 0 = rt := by
  obtain ⟨h2, h4, h1, hn, hm, ho⟩ := sysRegCode_lt r
  simp only [bits, moveWord_toNat hl r hr, moveWord_zero_toNat hl r]
  omega

/-- A move holds its register's tuple (R96). -/
theorem moveCode_moveWord {l rt : Nat} (hl : l < 2) (r : SysReg) (hr : rt < 2 ^ 5) :
    moveCode (moveWord l r rt) = sysRegCode r := by
  obtain ⟨h2, h4, h1, hn, hm, ho⟩ := sysRegCode_lt r
  rw [moveCode, SysRegCode.mk.injEq]
  simp only [bits, moveWord_toNat hl r hr, moveWord_zero_toNat hl r]
  omega

/-- A word with the fixed bits of a move and a register's tuple is that register's move (R95, R96). -/
theorem moveWord_eq {w : Word32} {l : Nat} {r : SysReg} (hl : bits w 21 21 = l) (hf : bits w 31 22 = 0b1101010100)
    (hb : bits w 20 20 = 1) (hc : sysRegCode r = moveCode w) : moveWord l r (bits w 4 0) = w := by
  have hw := w.isLt
  have hl2 : l < 2 := hl ▸ bits_lt w 21 21
  apply BitVec.eq_of_toNat_eq
  rw [moveWord_toNat hl2 r (bits_lt w 4 0), moveWord_zero_toNat hl2, hc]
  simp only [moveCode, bits] at hl hf hb ⊢
  omega

/-- The decoder of moves reads a move's operands (R95, R96). -/
theorem decodeMove_moveWord {l rt : Nat} (hl : l < 2) (r : SysReg) (hr : rt < 2 ^ 5) :
    decodeMove (moveWord l r rt) = if l = 0 then msrOf r rt else mrsOf r rt := by
  obtain ⟨-, h21, -, hrt⟩ := bits_moveWord hl r hr
  have hc : sysRegOfCode (moveCode (moveWord l r rt)) = some r := by
    rw [moveCode_moveWord hl r hr, sysRegOfCode_sysRegCode]
  rw [moveCode] at hc
  simp only [decodeMove, hc, h21, hrt]

/-- A word that decodes as a move holds a register's tuple, and L picks the row (R95). -/
theorem decodeMove_cases {w : Word32} {i : Instr} (h : decodeMove w = some i) :
    ∃ r, sysRegCode r = moveCode w ∧
      ((bits w 21 21 = 0 ∧ msrOf r (bits w 4 0) = some i) ∨ (bits w 21 21 = 1 ∧ mrsOf r (bits w 4 0) = some i)) := by
  have hl : bits w 21 21 < 2 := bits_lt w 21 21
  simp only [decodeMove] at h
  split at h
  next => cases h
  next r hr =>
    refine ⟨r, sysRegCode_of_sysRegOfCode hr, ?_⟩
    split_ifs at h with h0
    · exact .inl ⟨h0, h⟩
    · exact .inr ⟨by omega, h⟩

theorem encode_of_msrOf {r : SysReg} {rt : Nat} {i : Instr} (h : msrOf r rt = some i) : encode i = moveWord 0 r rt := by
  rcases r with (_ | _) | (_ | _) | (_ | _) | (_ | _) | _ <;> cases h <;> rfl

theorem encode_of_mrsOf {r : SysReg} {rt : Nat} {i : Instr} (h : mrsOf r rt = some i) : encode i = moveWord 1 r rt := by
  rcases r with _ | _ | _ | (_ | _) | _ <;> cases h <;> rfl

/-- Bit 20 tells a barrier from a move (R95, R97). -/
theorem ne_barrier_of_bit20 {w : Word32} (h : bits w 20 20 = 1) :
    w ≠ dsbWord crmSy ∧ w ≠ dsbWord crmIsh ∧ w ≠ isbWord crmSy := by
  refine ⟨?_, ?_, ?_⟩ <;> rintro rfl <;> revert h <;> decide

/-- A word with the fixed bits of a move decodes as that move (R95). -/
theorem decodeA64_of_move {w : Word32} {i : Instr} (hf : bits w 31 22 = 0b1101010100) (hb : bits w 20 20 = 1)
    (hm : decodeMove w = some i) : decodeA64 w = .ok i := by
  obtain ⟨hsy, hish, hisb⟩ := ne_barrier_of_bit20 hb
  simp only [decodeA64, if_neg hsy, if_neg hish, if_neg hisb, if_pos (And.intro hf hb), hm]

/-- No bit of an A64-SYS word is ignored (R95 to R97). -/
theorem encode_of_decodeA64 {w : Word32} {i : Instr} (h : decodeA64 w = .ok i) : encode i = w := by
  obtain ⟨rfl, rfl⟩ | ⟨rfl, rfl⟩ | ⟨rfl, rfl⟩ | ⟨hf, hb, hm⟩ := decodeA64_cases h
  · rfl
  · rfl
  · rfl
  · obtain ⟨r, hc, ⟨hl, hi⟩ | ⟨hl, hi⟩⟩ := decodeMove_cases hm
    · rw [encode_of_msrOf hi, moveWord_eq hl hf hb hc]
    · rw [encode_of_mrsOf hi, moveWord_eq hl hf hb hc]

/-- Every A64-SYS word has 0xD where a command has its OP (R95, R97). -/
theorem op_of_decodeA64 {w : Word32} {i : Instr} (h : decodeA64 w = .ok i) : bits w 31 28 = 0xD := by
  obtain ⟨rfl, -⟩ | ⟨rfl, -⟩ | ⟨rfl, -⟩ | ⟨hf, -, -⟩ := decodeA64_cases h
  · decide
  · decide
  · decide
  · simp only [bits] at hf ⊢
    omega

/-! ### Both formats -/

theorem decode_of_decodeA64 {w : Word32} {i : Instr} (h : decodeA64 w = .ok i) : decode w = .ok i := by
  simp only [decode, h]

/-- Every move decodes from its word (R95, R96). -/
theorem decode_encode_move {l : Nat} (r : SysReg) {rt : Nat} {i : Instr} (hl : l < 2) (hr : regFits rt = true)
    (he : encode i = moveWord l r rt) (hi : (if l = 0 then msrOf r rt else mrsOf r rt) = some i) :
    decode (encode i) = .ok i := by
  have hrt : rt < 2 ^ 5 := of_decide_eq_true hr
  obtain ⟨hf, -, hb, -⟩ := bits_moveWord hl r hrt
  rw [he]
  exact decode_of_decodeA64 (decodeA64_of_move hf hb ((decodeMove_moveWord hl r hrt).trans hi))

/-- A word that decodes as a command is no A64-SYS word (R94). -/
theorem decode_of_decodeCommand {w : Word32} {i : Instr} (h : decodeCommand w = .ok i) : decode w = .ok i := by
  unfold decode
  split
  next j hj =>
    have hop := op_of_decodeA64 hj
    simp [decodeCommand, hop] at h
  next => exact h

/-- Settles O1: each row by the format it belongs to, a move by its register of R96. -/
theorem decodeOfEncodeIsTheInstruction : Obligations.DecodeOfEncodeIsTheInstruction := by
  intro i hi
  cases i with
  | build | enable => exact decode_of_decodeCommand rfl
  | encTable slot => exact decode_of_decodeCommand (decodeCommand_encTable (of_decide_eq_true hi))
  | encPage g => exact decode_of_decodeCommand (decodeCommand_encPage (of_decide_eq_true hi))
  | msrMairEl3 rt => exact decode_encode_move (l := 0) (.mair .el3) (by decide) hi rfl rfl
  | msrTcrEl3 rt => exact decode_encode_move (l := 0) (.tcr .el3) (by decide) hi rfl rfl
  | msrTtbr0El3 rt => exact decode_encode_move (l := 0) (.ttbr0 .el3) (by decide) hi rfl rfl
  | msrSctlrEl3 rt => exact decode_encode_move (l := 0) (.sctlr .el3) (by decide) hi rfl rfl
  | mrsSctlrEl3 rt => exact decode_encode_move (l := 1) (.sctlr .el3) (by decide) hi rfl rfl
  | msrMairEl2 rt => exact decode_encode_move (l := 0) (.mair .el2) (by decide) hi rfl rfl
  | msrTcrEl2 rt => exact decode_encode_move (l := 0) (.tcr .el2) (by decide) hi rfl rfl
  | msrTtbr0El2 rt => exact decode_encode_move (l := 0) (.ttbr0 .el2) (by decide) hi rfl rfl
  | msrSctlrEl2 rt => exact decode_encode_move (l := 0) (.sctlr .el2) (by decide) hi rfl rfl
  | mrsSctlrEl2 rt => exact decode_encode_move (l := 1) (.sctlr .el2) (by decide) hi rfl rfl
  | mrsIdAa64mmfr0El1 rt => exact decode_encode_move (l := 1) .idAa64mmfr0El1 (by decide) hi rfl rfl
  | dsbSy | dsbIsh | isb => rfl

/-- Settles O2: the word is made of the fields its decoder read. -/
theorem encodeOfDecodeIsTheWord : Obligations.EncodeOfDecodeIsTheWord := by
  intro w i h
  unfold decode at h
  split at h
  next j hj => cases h; exact encode_of_decodeA64 hj
  next => exact encode_of_decodeCommand h

/-- Settles O4: every A64-SYS word has the OP 0xD, which is reserved. -/
theorem noWordIsInBothFormats : Obligations.NoWordIsInBothFormats := by
  intro w i h
  simp [decodeCommand, op_of_decodeA64 h]

end Sys2Proof

/-! ## The commands by match and mask, and the micro-program's words -/

namespace Sys2Proof

open Machine Claims

/-- A word under the mask of its bits from k on. -/
theorem toNat_and_upperMask (w : Word32) (k : Nat) :
    (w &&& BitVec.allOnes 32 <<< k).toNat = w.toNat / 2 ^ k * 2 ^ k := by
  have hle := (Nat.div_mul_le_self w.toNat (2 ^ k)).trans_lt w.isLt
  rw [← BitVec.shiftLeft_ushiftRight, BitVec.toNat_shiftLeft, BitVec.toNat_ushiftRight, Nat.shiftRight_eq_div_pow,
    Nat.shiftLeft_eq, Nat.mod_eq_of_lt hle]

/-- BUILD and ENABLE are one word each (30_encoding.md R92, R102). -/
theorem eq_commandWord_zero_iff (w : Word32) {op : Nat} (h : op < 2 ^ 4) :
    w = commandWord op 0 ↔ bits w 31 28 = op ∧ bits w 27 0 = 0 := by
  have hw := w.isLt
  rw [← BitVec.toNat_inj, commandWord_toNat h (by decide)]
  simp only [bits]
  omega

/-- ENC.TABLE's match and mask fix OP and the reserved bits (R93, R102). -/
theorem match_encTable_iff (w : Word32) :
    w &&& 0xFFFFE000 = 0x30000000 ↔ bits w 31 28 = 3 ∧ bits w 27 13 = 0 := by
  have hw := w.isLt
  rw [show (0xFFFFE000 : Word32) = BitVec.allOnes 32 <<< 13 by decide, ← BitVec.toNat_inj, toNat_and_upperMask]
  simp only [bits, BitVec.reduceToNat]
  omega

/-- ENC.PAGE's match and mask fix OP and the reserved bits (R93, R102). -/
theorem match_encPage_iff (w : Word32) :
    w &&& 0xFFFE0000 = 0x40000000 ↔ bits w 31 28 = 4 ∧ bits w 27 17 = 0 := by
  have hw := w.isLt
  rw [show (0xFFFE0000 : Word32) = BitVec.allOnes 32 <<< 17 by decide, ← BitVec.toNat_inj, toNat_and_upperMask]
  simp only [bits, BitVec.reduceToNat]
  omega

/-- A word that is no command raises BADCMD in an idle block without an error (60_exceptions.md R202, R204). -/
theorem acceptBadWord_of_idle {s : State} (h : Idle s) (w : Word32) :
    acceptBadWord w s = failed s .badcmd (w.setWidth 64) := by
  obtain ⟨he, hb⟩ := h
  simp only [acceptBadWord, he, hb, Bool.false_eq_true, if_false]
  exact raise_of_no_err he .badcmd _

/-- A step that takes a word at CMD that does not decode. -/
theorem step_of_badWord {s : State} {w : Word32} {rest : List Input} {r : DecodeError} (h : s.inputs = .write w :: rest)
    (hd : decodeCommand w = .error r) : step s = .next (acceptBadWord w { s with inputs := rest }) := by
  rw [step_of_input h]
  simp only [takeInput, hostWrite, hd]

/-- Settles O3: each match and mask fixes OP and the reserved bits of one row, and no other word decodes. -/
theorem commandRowsByMatchAndMask : Obligations.CommandRowsByMatchAndMask := by
  intro w
  have hbuild : w = 0x10000000 ↔ _ := eq_commandWord_zero_iff w (op := 1) (by decide)
  have henable : w = 0x20000000 ↔ _ := eq_commandWord_zero_iff w (op := 2) (by decide)
  rw [ne_eq, ne_eq, ne_eq, ne_eq, hbuild, henable, match_encTable_iff, match_encPage_iff]
  refine ⟨fun ⟨ho, hz⟩ => decodeCommand_ok_iff.2 (.inl ⟨ho, hz, rfl⟩),
    fun ⟨ho, hz⟩ => decodeCommand_ok_iff.2 (.inr (.inl ⟨ho, hz, rfl⟩)),
    fun ⟨ho, hz⟩ => decodeCommand_ok_iff.2 (.inr (.inr (.inl ⟨ho, hz, rfl⟩))),
    fun ⟨ho, hz⟩ => decodeCommand_ok_iff.2 (.inr (.inr (.inr ⟨ho, hz, rfl⟩))), fun h1 h2 h3 h4 => ?_⟩
  cases hd : decodeCommand w with
  | error r => exact ⟨⟨r, rfl⟩, fun s rest hin hi =>
    (step_of_badWord hin hd).trans (congrArg _ (acceptBadWord_of_idle (s := { s with inputs := rest }) hi w))⟩
  | ok i =>
    obtain ⟨ho, hz, -⟩ | ⟨ho, hz, -⟩ | ⟨ho, hz, -⟩ | ⟨ho, hz, -⟩ := decodeCommand_cases hd
    · exact absurd ⟨ho, hz⟩ h1
    · exact absurd ⟨ho, hz⟩ h2
    · exact absurd ⟨ho, hz⟩ h3
    · exact absurd ⟨ho, hz⟩ h4

/-- Settles O5: each word through its decoder. -/
theorem wordsWrittenOutFromTheSpecDecode : Obligations.WordsWrittenOutFromTheSpecDecode := by
  unfold Obligations.WordsWrittenOutFromTheSpecDecode
  decide

/-- SEQ's word at an index, for the register set VARIANT.EL selects (R98, 42_sequencer.md R175). -/
theorem uopWord_eq {c : Config} {e : El} (h : elOf c.variant.el = some e) (n : Nat) :
    uopWord c n = (uopWords c.dsb1Scope e)[n]? := by
  simp only [uopWord, h]

/-- Settles O6: the words of R98 and the micro-operations of R161, in both register sets and both scopes. -/
theorem microProgramIsTheWordMap : Obligations.MicroProgramIsTheWordMap := by
  intro c
  refine ⟨fun hv => ?_, fun hv => ?_⟩
  · have he : elOf c.variant.el = some .el3 := by rw [hv]; rfl
    refine ⟨fun n => (uopWord_eq he n).trans ?_, fun n => (uopInstr_eq he n).trans ?_⟩ <;> cases c.dsb1Scope <;> rfl
  · have he : elOf c.variant.el = some .el2 := by rw [hv]; rfl
    refine ⟨fun n => (uopWord_eq he n).trans ?_, fun n => (uopInstr_eq he n).trans ?_⟩ <;> cases c.dsb1Scope <;> rfl

end Sys2Proof

/-! ## The moves: what they do outside SEQ, their frames, and X0 -/

namespace Sys2Proof

open Machine Claims

/-! ### X registers -/

/-- An X register is read from the file of X registers. -/
theorem readX_congr {s t : State} (h : t.x = s.x) (n : Nat) : t.readX n = s.readX n := by
  simp only [State.readX, h]

@[simp] theorem raise_readX (s : State) (c : ErrCode) (w : Word64) (n : Nat) : (s.raise c w).readX n = s.readX n :=
  readX_congr (raise_x s c w) n

@[simp] theorem uopDone_readX (s : State) (n : Nat) : s.uopDone.readX n = s.readX n := readX_congr (uopDone_x s) n

@[simp] theorem setSysReg_readX (s : State) (r : SysReg) (v : Word64) (n : Nat) :
    (s.setSysReg r v).readX n = s.readX n := readX_congr (setSysReg_x s r v) n

/-- A write of an X register changes the file of X registers and nothing else (30_encoding.md R95). -/
theorem writeX_eq (s : State) (n : Nat) (v : Word64) : s.writeX n v = { s with x := (s.writeX n v).x } := by
  unfold State.writeX
  split <;> rfl

/-! ### Outside SEQ -/

/-- An MSR row that is not SEQ's µop, at a level that may write its register (R95; 20_memory.md R73). -/
theorem exec_msr_outside {s : State} {i : Instr} {u : Nat} {r : SysReg} {v : Word64} {rt : Nat}
    (hs : s.seqRuns i = false) (hl : minEl r ≤ s.curEl.val)
    (hx : exec i s = if s.seqRuns i then .next (seqWrite u r v s) else cpuMsr r rt s) :
    exec i s = .next (s.setSysReg r (s.readX rt)) := by
  obtain ⟨-, hc⟩ | ⟨hlt, -⟩ := cpuMsr_cases r rt s
  · rw [hx, if_neg (Bool.eq_false_iff.1 hs), hc]
  · omega

/-- An MRS row that is not SEQ's µop, at a level that may read its register (R95, R73). -/
theorem exec_mrs_outside {s : State} {i : Instr} {f : State → State} {r : SysReg} {rt : Nat}
    (hs : s.seqRuns i = false) (hl : minEl r ≤ s.curEl.val)
    (hx : exec i s = if s.seqRuns i then .next (f s) else cpuMrs r rt s) :
    exec i s = .next (s.writeX rt (s.sysReg r)) := by
  obtain ⟨-, hc⟩ | ⟨hlt, -⟩ := cpuMrs_cases r rt s
  · rw [hx, if_neg (Bool.eq_false_iff.1 hs), hc]
  · omega

/-- Settles O42: the eight MSR rows, by the level of their register. -/
theorem msrOutsideSeqWritesItsRegister : Obligations.MsrOutsideSeqWritesItsRegister := by
  refine fun s rt _ => ⟨fun hl => ⟨fun h => ?_, fun h => ?_, fun h => ?_, fun h => ?_⟩,
    fun hl => ⟨fun h => ?_, fun h => ?_, fun h => ?_, fun h => ?_⟩, fun h => h ▸ readX_xzr s⟩
  · exact exec_msr_outside (r := .mair .el3) h hl rfl
  · exact exec_msr_outside (r := .tcr .el3) h hl rfl
  · exact exec_msr_outside (r := .ttbr0 .el3) h hl rfl
  · exact exec_msr_outside (r := .sctlr .el3) h hl rfl
  · exact exec_msr_outside (r := .mair .el2) h hl rfl
  · exact exec_msr_outside (r := .tcr .el2) h hl rfl
  · exact exec_msr_outside (r := .ttbr0 .el2) h hl rfl
  · exact exec_msr_outside (r := .sctlr .el2) h hl rfl

/-- Settles O43: each MRS row writes Xt, and a write of XZR is discarded. -/
theorem mrsOutsideSeqReadsItsRegister : Obligations.MrsOutsideSeqReadsItsRegister := by
  intro s rt i v _ hs h
  have hx : exec i s = .next (s.writeX rt v) := by
    obtain ⟨rfl, rfl, hl⟩ | ⟨rfl, rfl, hl⟩ | ⟨rfl, rfl, hl⟩ := h
    · exact exec_mrs_outside (r := .sctlr .el3) hs hl rfl
    · exact exec_mrs_outside (r := .sctlr .el2) hs hl rfl
    · exact exec_mrs_outside (r := .idAa64mmfr0El1) hs hl rfl
  exact ⟨_, hx, writeX_eq s rt v, readX_writeX_same s v, fun h31 => h31 ▸ writeX_xzr s v,
    fun n hn => readX_writeX_other s v hn⟩

/-! ### Frames -/

/-- u9 is an ISB, so a move that is SEQ's µop is not the last one (42_sequencer.md R161). -/
theorem upc_ne_last_of_seqRuns {s : State} {i : Instr} (h : s.seqRuns i = true) (hi : i ≠ .isb) : s.upc ≠ 9 := by
  obtain ⟨-, -, hu⟩ := (seqRuns_iff s i).1 h
  obtain ⟨e, -, ht⟩ := elOf_of_uopInstr hu
  intro h9
  rw [h9] at ht
  cases e <;> exact hi (Option.some.inj ht).symm

/-- A µop before u9 does not enable (R162). -/
theorem uopDone_enabled_of_ne_last {s : State} (h : s.upc ≠ 9) : s.uopDone.enabled = s.enabled := by
  rw [uopDone_of_ne_last h]

/-- An MSR row as SEQ's µop and outside SEQ. -/
theorem exec_msr_cases {s t : State} {i : Instr} {u : Nat} {r : SysReg} {v : Word64} {rt : Nat}
    (hx : exec i s = if s.seqRuns i then .next (seqWrite u r v s) else cpuMsr r rt s) (h : exec i s = .next t) :
    (s.seqRuns i = true ∧ t = seqWrite u r v s) ∨ (s.seqRuns i = false ∧ t = s.setSysReg r (s.readX rt)) := by
  rw [hx] at h
  split_ifs at h with hs
  · cases h
    exact .inl ⟨hs, rfl⟩
  · obtain ⟨-, hc⟩ | ⟨-, hc⟩ := cpuMsr_cases r rt s <;> rw [hc] at h <;> cases h
    exact .inr ⟨Bool.eq_false_iff.2 hs, rfl⟩

/-- An MRS row as SEQ's µop and outside SEQ. -/
theorem exec_mrs_cases {s t : State} {i : Instr} {f : State → State} {r : SysReg} {rt : Nat}
    (hx : exec i s = if s.seqRuns i then .next (f s) else cpuMrs r rt s) (h : exec i s = .next t) :
    (s.seqRuns i = true ∧ t = f s) ∨ (s.seqRuns i = false ∧ t = s.writeX rt (s.sysReg r)) := by
  rw [hx] at h
  split_ifs at h with hs
  · cases h
    exact .inl ⟨hs, rfl⟩
  · obtain ⟨-, hc⟩ | ⟨-, hc⟩ := cpuMrs_cases r rt s <;> rw [hc] at h <;> cases h
    exact .inr ⟨Bool.eq_false_iff.2 hs, rfl⟩

/-- Settles O48: an MSR as SEQ's µop, with and without SYSREG, and outside SEQ. -/
theorem msrFrame : Obligations.MsrFrame := by
  intro i r rt s t hi h
  refine ⟨noInstructionWritesMemory i s t h, ?_⟩
  obtain ⟨hisb, u, v, hx⟩ : i ≠ .isb ∧ ∃ u v,
      exec i s = if s.seqRuns i then .next (seqWrite u r v s) else cpuMsr r rt s := by
    rcases hi with ⟨rfl, rfl⟩ | ⟨rfl, rfl⟩ | ⟨rfl, rfl⟩ | ⟨rfl, rfl⟩ | ⟨rfl, rfl⟩ | ⟨rfl, rfl⟩ | ⟨rfl, rfl⟩ | ⟨rfl, rfl⟩ <;>
      exact ⟨by simp, _, _, rfl⟩
  obtain ⟨hs, rfl⟩ | ⟨hs, rfl⟩ := exec_msr_cases hx h
  · have h9 := upc_ne_last_of_seqRuns hs hisb
    obtain ⟨-, hw⟩ | ⟨-, hw⟩ := seqWrite_cases u r v s <;> rw [hw]
    · have hen := uopDone_enabled_of_ne_last (s := (s.writeX 0 v).setSysReg r v) (by simpa using h9)
      simp +contextual [hs, hen, setSysReg_sysReg_other, readX_writeX_other]
    · simp [hs]
  · simp +contextual [SameBlock, setSysReg_sysReg_other]

/-- What an MRS row to Xn leaves alone, as SEQ's µop too. -/
def MrsKeeps (n : Nat) (s t : State) : Prop :=
  (∀ r, t.sysReg r = s.sysReg r) ∧ t.ctx = s.ctx ∧ t.walkerSync = s.walkerSync ∧ t.built = s.built ∧ t.ipc = s.ipc ∧
    t.encOut = s.encOut ∧ t.enabled = s.enabled ∧ ∀ k, k ≠ n → t.readX k = s.readX k

theorem mrsKeeps_writeX (n : Nat) (v : Word64) (s : State) : MrsKeeps n s (s.writeX n v) := by
  simp +contextual [MrsKeeps, readX_writeX_other]

theorem mrsKeeps_raise {n : Nat} {s t : State} (h : MrsKeeps n s t) (c : ErrCode) (w : Word64) :
    MrsKeeps n s (t.raise c w) := by
  simpa [MrsKeeps] using h

theorem mrsKeeps_uopDone {n : Nat} {s t : State} (h : MrsKeeps n s t) (h9 : t.upc ≠ 9) : MrsKeeps n s t.uopDone := by
  simpa [MrsKeeps, uopDone_enabled_of_ne_last h9] using h

/-- X0 and tmp hold the value read, and the other X registers are unchanged. -/
theorem mrsKeeps_loadTmp (v : Word64) (p : BitVec 3) (s : State) : MrsKeeps 0 s (loadTmp v p s) := by
  obtain ⟨-, hrest⟩ := mrsKeeps_writeX 0 v s
  exact ⟨loadTmp_sysReg v p s, hrest⟩

/-- µop u1 in its three outcomes (R164). -/
theorem mrsKeeps_seqReadMmfr0 {s : State} (h9 : s.upc ≠ 9) : MrsKeeps 0 s (seqReadMmfr0 s) := by
  obtain ⟨-, h⟩ | ⟨-, -, h⟩ | ⟨-, -, h⟩ := seqReadMmfr0_cases s <;> rw [h]
  · simp [MrsKeeps]
  · exact mrsKeeps_raise (mrsKeeps_loadTmp s.idAa64mmfr0El1 s.ps s) _ _
  · exact mrsKeeps_uopDone (mrsKeeps_loadTmp s.idAa64mmfr0El1 _ s) h9

/-- µop u6 in its two outcomes, neither of which writes ps (R169). -/
theorem mrsKeeps_seqReadSctlr (r : SysReg) {s : State} (h9 : s.upc ≠ 9) :
    MrsKeeps 0 s (seqReadSctlr r s) ∧ (seqReadSctlr r s).ps = s.ps := by
  obtain ⟨-, h⟩ | ⟨-, h⟩ := seqReadSctlr_cases r s <;> rw [h]
  · simp [MrsKeeps]
  · exact ⟨mrsKeeps_uopDone (mrsKeeps_loadTmp (s.sysReg r) s.ps s) h9, by simp⟩

/-- The MRS rows of the micro-program name X0 (30_encoding.md R98). -/
theorem rt_eq_zero_of_mem_uopTable {d : DsbScope} {e : El} {i : Instr} {rt : Nat} (h : i ∈ uopTable d e)
    (hi : i = .mrsSctlrEl3 rt ∨ i = .mrsSctlrEl2 rt ∨ i = .mrsIdAa64mmfr0El1 rt) : rt = 0 := by
  rcases hi with rfl | rfl | rfl <;> cases d <;> cases e <;> simp [uopTable, dsbInstr] at h <;> exact h

/-- An MRS row that is SEQ's µop is no last µop, and its register is X0. -/
theorem mrs_uop_of_seqRuns {s : State} {i : Instr} {rt : Nat} (h : s.seqRuns i = true)
    (hi : i = .mrsSctlrEl3 rt ∨ i = .mrsSctlrEl2 rt ∨ i = .mrsIdAa64mmfr0El1 rt) : s.upc ≠ 9 ∧ rt = 0 := by
  refine ⟨upc_ne_last_of_seqRuns h (by rcases hi with rfl | rfl | rfl <;> simp), ?_⟩
  obtain ⟨-, -, hu⟩ := (seqRuns_iff s i).1 h
  obtain ⟨e, -, ht⟩ := elOf_of_uopInstr hu
  exact rt_eq_zero_of_mem_uopTable (List.mem_of_getElem? ht) hi

/-- What the three MRS rows do, and what they leave alone as SEQ's µops. -/
theorem exec_mrs_eq {s : State} {i : Instr} {rt : Nat}
    (hi : i = .mrsSctlrEl3 rt ∨ i = .mrsSctlrEl2 rt ∨ i = .mrsIdAa64mmfr0El1 rt) :
    ∃ (f : State → State) (r : SysReg), (exec i s = if s.seqRuns i then .next (f s) else cpuMrs r rt s) ∧
      (s.upc ≠ 9 → MrsKeeps 0 s (f s) ∧ (i ≠ .mrsIdAa64mmfr0El1 rt → (f s).ps = s.ps)) := by
  obtain rfl | rfl | rfl := hi
  · exact ⟨_, .sctlr .el3, rfl, fun h9 => (mrsKeeps_seqReadSctlr _ h9).imp_right fun hp _ => hp⟩
  · exact ⟨_, .sctlr .el2, rfl, fun h9 => (mrsKeeps_seqReadSctlr _ h9).imp_right fun hp _ => hp⟩
  · exact ⟨_, .idAa64mmfr0El1, rfl, fun h9 => ⟨mrsKeeps_seqReadMmfr0 h9, fun hn => absurd rfl hn⟩⟩

/-- Settles O49: an MRS outside SEQ writes Xt; as SEQ's µop it moves X0. -/
theorem mrsFrame : Obligations.MrsFrame := by
  intro i rt s t hi h
  have hkeeps : MrsKeeps rt s t ∧ (i ≠ .mrsIdAa64mmfr0El1 rt → t.ps = s.ps) ∧ (s.seqRuns i = false → SameBlock s t) := by
    obtain ⟨f, r, hx, hf⟩ := exec_mrs_eq (s := s) hi
    obtain ⟨hs, rfl⟩ | ⟨hs, rfl⟩ := exec_mrs_cases hx h
    · obtain ⟨h9, rfl⟩ := mrs_uop_of_seqRuns hs hi
      obtain ⟨hk, hps⟩ := hf h9
      exact ⟨hk, hps, fun hn => Bool.noConfusion (hs.symm.trans hn)⟩
    · exact ⟨mrsKeeps_writeX rt _ s, fun _ => writeX_ps s rt _, fun _ => by simp [SameBlock]⟩
  obtain ⟨⟨hr, hc, hw, hb, hp, ho, he, hx⟩, hps, hblock⟩ := hkeeps
  exact ⟨noInstructionWritesMemory i s t h, hr, hc, hw, hb, hp, ho, he, hps, hx, hblock⟩

/-! ### X0 -/

/-- X0 holds v, and the other X registers are unchanged. -/
def SuppliesX0 (v : Word64) (s t : State) : Prop := t.readX 0 = v ∧ ∀ k, k ≠ 0 → t.readX k = s.readX k

theorem suppliesX0_of_x {v : Word64} {s t : State} (h : t.x = (s.writeX 0 v).x) : SuppliesX0 v s t :=
  ⟨(readX_congr h 0).trans (readX_writeX_same s v (by decide)),
    fun k hk => (readX_congr h k).trans (readX_writeX_other s v hk)⟩

/-- A register-writing µop at a sufficient level: X0 holds what the register is given. -/
theorem seqWrite_suppliesX0 {s : State} {e : El} {f : El → SysReg}
    (hf : f = .mair ∨ f = .tcr ∨ f = .ttbr0 ∨ f = .sctlr) (hl : levelOf e ≤ s.curEl.val) (u : Nat) (v : Word64) :
    SuppliesX0 ((seqWrite u (f e) v s).sysReg (f e)) s (seqWrite u (f e) v s) := by
  have hm : minEl (f e) ≤ s.curEl.val := by rcases hf with rfl | rfl | rfl | rfl <;> cases e <;> exact hl
  rw [seqWrite_of_level hm, uopDone_sysReg, setSysReg_sysReg_same _ e v f hf]
  exact suppliesX0_of_x (by simp)

/-- µop u1 at a sufficient level, whether or not PARange is reserved (log entry 8). -/
theorem seqReadMmfr0_suppliesX0 {s : State} (hl : 1 ≤ s.curEl.val) :
    SuppliesX0 s.idAa64mmfr0El1 s (seqReadMmfr0 s) := by
  obtain ⟨hlt, -⟩ | ⟨-, -, h⟩ | ⟨-, -, h⟩ := seqReadMmfr0_cases s
  · omega
  · rw [h]; exact suppliesX0_of_x (by simp)
  · rw [h]; exact suppliesX0_of_x (by simp)

/-- µop u6 at a sufficient level. -/
theorem seqReadSctlr_suppliesX0 {s : State} {r : SysReg} (hl : minEl r ≤ s.curEl.val) :
    SuppliesX0 (s.sysReg r) s (seqReadSctlr r s) := by
  obtain ⟨hlt, -⟩ | ⟨-, h⟩ := seqReadSctlr_cases r s
  · omega
  · rw [h]; exact suppliesX0_of_x (by simp)

/-- The barriers of the micro-program move no X register. -/
theorem seqUop_barrier_x {n : Nat} (h : n = 4 ∨ n = 5 ∨ n = 8 ∨ n = 9) (e : El) (s : State) :
    (seqUop e n s).x = s.x := by
  rcases h with rfl | rfl | rfl | rfl <;> simp [seqUop]

/-- SEQ's step before µop n, whatever the µop meets (R162). -/
theorem step_of_atMicroOp {s : State} {e : El} {n : Nat} (h : AtMicroOp s e n) (hn : n < 10) (hin : s.inputs = []) :
    step s = .next (seqUop e n s) := by
  obtain ⟨hb, hm, -, hu, he⟩ := id h
  obtain ⟨i, hi⟩ : ∃ i, (uopTable s.cfg.dsb1Scope e)[n]? = some i :=
    ⟨_, List.getElem?_eq_getElem (by rwa [uopTable_length])⟩
  rw [step_of_no_input hin, blockStep_enable hb hm, seqStep_of_uop (i := i) (by rw [uopInstr_eq he, hu, hi]),
    exec_eq_seqUop hn hi (seqRuns_of_atMicroOp h hi)]

/-- Settles O39: the µops that write, those that read, and the barriers. -/
theorem datapathSuppliesX0 : Obligations.DatapathSuppliesX0 := by
  intro s e n h hn hl hin
  refine ⟨_, step_of_atMicroOp h hn hin, ?_⟩
  have hl1 : 1 ≤ s.curEl.val := by cases e <;> simp only [levelOf] at hl <;> omega
  match n with
  | 0 =>
    obtain ⟨h0, hk⟩ := seqWrite_suppliesX0 (.inl rfl) hl 0 mairVal
    exact ⟨fun _ => h0, nofun, nofun, nofun, nofun, nofun, by simp, hk⟩
  | 1 =>
    obtain ⟨h0, hk⟩ := seqReadMmfr0_suppliesX0 hl1
    exact ⟨nofun, fun _ => h0, nofun, nofun, nofun, nofun, by simp, hk⟩
  | 2 =>
    obtain ⟨h0, hk⟩ := seqWrite_suppliesX0 (.inr (.inl rfl)) hl 2 (tcrVal s.ps)
    exact ⟨nofun, nofun, fun _ => h0, nofun, nofun, nofun, by simp, hk⟩
  | 3 =>
    obtain ⟨h0, hk⟩ := seqWrite_suppliesX0 (.inr (.inr (.inl rfl))) hl 3 (ttbrVal s.cfg.tableBase)
    exact ⟨nofun, nofun, nofun, fun _ => h0, nofun, nofun, by simp, hk⟩
  | 6 =>
    obtain ⟨h0, hk⟩ := seqReadSctlr_suppliesX0 (r := .sctlr e) (by cases e <;> exact hl)
    exact ⟨nofun, nofun, nofun, nofun, fun _ => h0, nofun, by simp, hk⟩
  | 7 =>
    obtain ⟨h0, hk⟩ := seqWrite_suppliesX0 (.inr (.inr (.inr rfl))) hl 7 (sctlrVal s.tmp)
    exact ⟨nofun, nofun, nofun, nofun, nofun, fun _ => h0, by simp, hk⟩
  | 4 | 5 | 8 | 9 =>
    exact ⟨nofun, nofun, nofun, nofun, nofun, nofun, fun hb => seqUop_barrier_x hb e s,
      fun k _ => readX_congr (seqUop_barrier_x (by decide) e s) k⟩

end Sys2Proof

/-! ## ENC: the results of its commands and the descriptors' fields -/

/-! ### Acceptance of the ENC commands -/

namespace Sys2Proof

open Machine Claims

/-- A command that meets none of R202's checks has its effect. -/
theorem accept_of_no_error {w : Word32} {k : CommandChecks} {s : State} (he : s.err = false)
    (ha : acceptError w k s = none) (f : State → State) : accept w k f s = f s := by
  simp only [accept, he, ha, Bool.false_eq_true, if_false]

/-- A command that meets one of R202's checks is the error entry of R205 and nothing else. -/
theorem accept_of_error {w : Word32} {k : CommandChecks} {s : State} {e : Err} (he : s.err = false)
    (ha : acceptError w k s = some e) (f : State → State) : accept w k f s = failed s e.code e.info := by
  simp only [accept, he, ha, Bool.false_eq_true, if_false]
  exact raise_of_no_err he e.code e.info

/-- The checks the two ENC commands meet: the common ones, and the range of a page index (R202, 40_encoder.md R120,
R121). -/
theorem acceptError_enc_none {s : State} (hb : s.busy = false) (hc : ConfigLegal s.cfg) (w : Word32) {page : Option Nat}
    (hp : ∀ g, page = some g → g < mappedPages) :
    acceptError w { oneShot := false, needsBuilt := false, page := page } s = none :=
  (acceptError_none_iff _ _ s).2 ⟨hb, Bool.noConfusion, Bool.noConfusion, hc, hp⟩

/-- An ENC.TABLE that R202 accepts (R120). -/
theorem exec_encTable_of_accepted {s : State} (hi : Idle s) (hc : ConfigLegal s.cfg) (slot : Nat) :
    exec (.encTable slot) s = .next { s with encOut := encRoot s.cfg slot } := by
  obtain ⟨he, hb⟩ := hi
  exact congrArg _ (accept_of_no_error he (acceptError_enc_none hb hc _ fun _ h => by cases h) _)

/-- An ENC.PAGE that R202 accepts (R121). -/
theorem exec_encPage_of_accepted {s : State} (hi : Idle s) (hc : ConfigLegal s.cfg) {g : Nat} (hg : g < mappedPages) :
    exec (.encPage g) s = .next { s with encOut := encLeaf s.cfg g } := by
  obtain ⟨he, hb⟩ := hi
  exact congrArg _ (accept_of_no_error he (acceptError_enc_none hb hc _ fun _ h => by cases h; exact hg) _)

/-- An ENC.PAGE beyond the mapped pages (R121). -/
theorem exec_encPage_of_range {s : State} (hi : Idle s) (hc : ConfigLegal s.cfg) {g : Nat} (hg : mappedPages ≤ g) :
    exec (.encPage g) s = .next (failed s .range (BitVec.ofNat 64 g)) := by
  obtain ⟨he, hb⟩ := hi
  have hcfg : configError s.cfg = none := hc
  refine congrArg _ (accept_of_error (e := { code := .range, info := BitVec.ofNat 64 g }) he ?_ _)
  simp only [acceptError, hb, hcfg, hg, Bool.false_eq_true, false_and, if_false, if_true]

/-! ### The results of the ENC commands -/

theorem encRoot_of_used (c : Config) {r : Nat} (h : r < 9) : encRoot c r = encTableDesc c r := if_pos h

theorem encRoot_of_unused (c : Config) {r : Nat} (h : 9 ≤ r) : encRoot c r = 0 := if_neg (Nat.not_lt.2 h)

theorem classOf_dev_iff (c : Config) (g : Nat) :
    classOf c g = .dev ↔ c.variant.devLo ≤ g ∧ g < c.variant.devHi := by
  simp [classOf]

/-- Settles O16: an accepted ENC.TABLE answers enc_root, in a used slot the number of its table descriptor. -/
theorem encTableResult : Obligations.EncTableResult := by
  intro s slot hi hc _
  rw [exec_encTable_of_accepted hi hc]
  split_ifs with h
  · rw [encRoot_of_used s.cfg h, (BitVec.toNat_eq_nat.1 (encTableDesc_toNat hc h)).2]
  · rw [encRoot_of_unused s.cfg (Nat.not_lt.1 h)]

/-- Settles O17: an accepted ENC.PAGE answers the number of the leaf entry's class. -/
theorem encPageResult : Obligations.EncPageResult := by
  intro s g hi hc hfit
  have hg : g < 2 ^ 32 := by omega
  refine ⟨fun hm hlo hhi => ?_, fun hm hout => ?_, exec_encPage_of_range hi hc⟩ <;>
    rw [exec_encPage_of_accepted hi hc hm]
  · obtain ⟨hcl, -⟩ | ⟨-, hd⟩ := encLeaf_cases s.cfg hg
    · exact absurd ((classOf_dev_iff s.cfg g).2 ⟨hlo, hhi⟩) (by simp [hcl])
    · have hns : (if s.cfg.variant.devNs then 0x20 else 0) = s.cfg.variant.devNs.toNat * 32 := by
        cases s.cfg.variant.devNs <;> rfl
      have hn : 0x60 * 2 ^ 48 + g * 2 ^ 16 + (0x647 + s.cfg.variant.devNs.toNat * 32) =
          g * 2 ^ 16 + 0x0060000000000647 + s.cfg.variant.devNs.toNat * 32 := by omega
      rw [(BitVec.toNat_eq_nat.1 hd).2, hn, hns]
  · obtain ⟨-, hd⟩ | ⟨hcl, -⟩ := encLeaf_cases s.cfg hg
    · rw [(BitVec.toNat_eq_nat.1 hd).2]
    · exact absurd ((classOf_dev_iff s.cfg g).1 hcl) hout

/-! ### The fields of the two formats -/

/-- A field of a descriptor has a value exactly when the descriptor's number has it there (00_scope.md R11). -/
theorem extractLsb'_eq_iff (d : Word64) (lo len : Nat) (v : BitVec len) :
    d.extractLsb' lo len = v ↔ d.toNat / 2 ^ lo % 2 ^ len = v.toNat := by
  rw [← BitVec.toNat_inj, BitVec.extractLsb'_toNat, Nat.shiftRight_eq_div_pow]

/-- Settles O19: the fields of the descriptor's number TABLE_BASE + 0x10000 (k + 1) + 3. -/
theorem tableDescriptorsFollowTheFormat : Obligations.TableDescriptorsFollowTheFormat := by
  intro c k hc hk
  obtain ⟨h1, h2⟩ := tableBase_of_legal hc
  simp only [tableFields, tableColumn, TableDescriptor.mk.injEq, extractLsb'_eq_iff, encTableDesc_toNat hc hk, leafBase,
    tableBytes, BitVec.toNat_ofNat, BitVec.reduceToNat]
  omega

/-- Settles O20: the fields of the two page descriptors' numbers. -/
theorem pageDescriptorsFollowTheFormat : Obligations.PageDescriptorsFollowTheFormat := by
  intro c g hg
  have hg32 : g < 2 ^ 32 := by omega
  have hns := Bool.toNat_le c.variant.devNs
  constructor
  · simp only [pageFields, ramColumn, PageDescriptor.mk.injEq, extractLsb'_eq_iff, encPageRam_toNat hg32,
      BitVec.toNat_ofNat, BitVec.reduceToNat]
    omega
  · simp only [pageFields, devColumn, PageDescriptor.mk.injEq, extractLsb'_eq_iff, encPageDev_toNat c hg32,
      BitVec.toNat_ofNat, BitVec.reduceToNat, BitVec.toNat_ofBool]
    omega

/-- Settles O21: the output address of a leaf entry is its index. -/
theorem leafEntriesAreIdentityMappings : Obligations.LeafEntriesAreIdentityMappings := by
  intro c g hg
  obtain ⟨hout, -⟩ := bits_encLeaf c (g := g) (by omega)
  exact ⟨hout, congrArg (· * 2 ^ 16) hout⟩

/-- The bits of a leaf entry the walk does not read: PXN by its class, the others 0 (40_encoder.md R112). -/
theorem bits_encLeaf_unread (c : Config) {g : Nat} (hg : g < 2 ^ 32) :
    bits (encLeaf c g) 53 53 = (if classOf c g = .dev then 1 else 0) ∧ bits (encLeaf c g) 63 55 = 0 ∧
    bits (encLeaf c g) 52 51 = 0 ∧ bits (encLeaf c g) 11 11 = 0 := by
  have hns := Bool.toNat_le c.variant.devNs
  obtain ⟨hcl, hd⟩ | ⟨hcl, hd⟩ := encLeaf_cases c hg
  · simp only [hcl, bits, hd, reduceCtorEq, if_false]
    omega
  · simp only [hcl, bits, hd, if_true]
    omega

/-- Settles O22: UXN and PXN are 1 in a device page and 0 in any other. -/
theorem executeNeverExactlyOnDevicePages : Obligations.ExecuteNeverExactlyOnDevicePages := by
  intro c g hg
  have hg32 : g < 2 ^ 32 := by omega
  obtain ⟨-, -, -, -, -, -, huxn, -⟩ := bits_encLeaf c hg32
  obtain ⟨hpxn, -⟩ := bits_encLeaf_unread c hg32
  rw [getLsbD_eq_bits, getLsbD_eq_bits, huxn, hpxn]
  simp

/-- Settles O23: each table descriptor points at TABLE_BASE + 0x10000 (k + 1). -/
theorem leafTablesAreDistinct : Obligations.LeafTablesAreDistinct := by
  intro c a b hc hab hb
  have ha : a < 9 := hab.trans hb
  obtain ⟨-, hnextA⟩ := bits_encTableDesc hc ha
  obtain ⟨-, hnextB⟩ := bits_encTableDesc hc hb
  refine ⟨⟨encRoot_of_used c ha, encRoot_of_used c hb, fun r hr _ => encRoot_of_unused c hr⟩, ?_⟩
  rw [hnextA, hnextB]
  omega

/-- The bits R125 names are 0 in every root entry. -/
theorem bits_encRoot {c : Config} (hc : ConfigLegal c) (r : Nat) :
    bits (encRoot c r) 63 48 = 0 ∧ bits (encRoot c r) 11 11 = 0 := by
  obtain hr | hr := Nat.lt_or_ge r 9
  · obtain ⟨h1, h2⟩ := tableBase_of_legal hc
    simp only [encRoot_of_used c hr, bits, encTableDesc_toNat hc hr]
    omega
  · rw [encRoot_of_unused c hr]
    decide

/-- Settles O24: the fields of root and leaf entries, a leaf entry's by its class. -/
theorem fieldsEncNeverSets : Obligations.FieldsEncNeverSets := by
  intro c hc
  simp only [getLsbD_eq_bits]
  refine ⟨fun r _ => ?_, fun g hg => ?_⟩
  · obtain ⟨hhigh, hlow⟩ := bits_encRoot hc r
    exact ⟨hhigh, by simp [hlow]⟩
  · have hg32 : g < 2 ^ 32 := by omega
    obtain ⟨-, -, -, hap, hattr, hsh, -, hns⟩ := bits_encLeaf c hg32
    obtain ⟨-, hhigh, hmid, hng⟩ := bits_encLeaf_unread c hg32
    rw [hap, hattr, hsh, hns, hhigh, hmid, hng]
    cases classOf c g <;> simp

/-! ### The frame of the commands -/

/-- An idle block stays idle in an error entry (60_exceptions.md R205). -/
theorem raise_busy_of_idle {s : State} (h : s.busy = false) (c : ErrCode) (w : Word64) : (s.raise c w).busy = false := by
  unfold State.raise
  split_ifs
  · exact h
  · rfl

/-- Everything a command can do: nothing once err = 1, an error entry, or its own effect. -/
theorem exec_command_cases {i : Instr} {s t : State} {n : Nat}
    (hi : i = .build ∨ i = .enable ∨ i = .encTable n ∨ i = .encPage n) (h : exec i s = .next t) :
    t = s ∨ (∃ c w, t = s.raise c w) ∨ (i = .build ∧ t = startBuild s) ∨ (i = .enable ∧ t = startEnable s) ∨
    ((i = .encTable n ∨ i = .encPage n) ∧ ∃ v, t = { s with encOut := v }) := by
  obtain ⟨w, k, f, hx, hf⟩ : ∃ w k f, exec i s = .next (accept w k f s) ∧
      ((i = .build ∧ f s = startBuild s) ∨ (i = .enable ∧ f s = startEnable s) ∨
      ((i = .encTable n ∨ i = .encPage n) ∧ ∃ v, f s = { s with encOut := v })) := by
    rcases hi with rfl | rfl | rfl | rfl
    · exact ⟨_, _, _, rfl, .inl ⟨rfl, rfl⟩⟩
    · exact ⟨_, _, _, rfl, .inr (.inl ⟨rfl, rfl⟩)⟩
    · exact ⟨_, _, _, rfl, .inr (.inr ⟨.inl rfl, _, rfl⟩)⟩
    · exact ⟨_, _, _, rfl, .inr (.inr ⟨.inr rfl, _, rfl⟩)⟩
  cases hx.symm.trans h
  obtain ⟨-, ha⟩ | ⟨e, -, -, ha⟩ | ⟨-, -, ha⟩ := accept_cases w k f s <;> rw [ha]
  · exact .inl rfl
  · exact .inr (.inl ⟨_, _, rfl⟩)
  · exact .inr (.inr hf)

/-- Settles O47: the frame of each case of a command; that of memory is every instruction's. -/
theorem commandFrame : Obligations.CommandFrame := by
  intro i s t n hi h
  refine ⟨noInstructionWritesMemory i s t h, ?_⟩
  obtain rfl | ⟨c, w, rfl⟩ | ⟨rfl, rfl⟩ | ⟨rfl, rfl⟩ | ⟨henc, v, rfl⟩ := exec_command_cases hi h
  · simp
  · simp +contextual [raise_busy_of_idle]
  · exact ⟨fun _ => rfl, by simp [startBuild]⟩
  · exact ⟨fun _ => rfl, by simp [startEnable]⟩
  · exact ⟨fun _ => rfl, by rcases henc with rfl | rfl <;> simp⟩

end Sys2Proof

/-! ## INIT: one write, and what a step leaves of the entries written so far -/

namespace Sys2Proof

open Machine Claims

/-! ### One INIT write -/

/-- The machine after an accepted MemWrite of entry ipc, before the block's registers take note of it
(41_initializer.md R145). -/
def putEntry (s : State) : State :=
  { s with
    mem := memWriteBytes s.mem (entryAddr s.cfg s.ipc.toNat) (bytesOfWord (entry s.cfg s.ipc.toNat)),
    memPort := s.memPort.tail }

/-- An INIT step whose write the port accepts (R145). -/
theorem initStep_of_accept {s : State} (hi : s.ipc.toNat < totalEntries) (hc : ConfigLegal s.cfg)
    (hp : s.memPort.head? ≠ some .reject) : initStep s = .next (putEntry s).entryWritten := by
  obtain ⟨-, hw⟩ | ⟨hrej, -⟩ := initStep_cases hi hc
  · exact hw
  · exact absurd hrej hp

/-- An INIT step whose write the port rejects (R145, R147). -/
theorem initStep_of_reject {s : State} (hi : s.ipc.toNat < totalEntries) (hc : ConfigLegal s.cfg)
    (hp : s.memPort.head? = some .reject) :
    initStep s = .next (State.raise { s with memPort := s.memPort.tail } .mem
      (BitVec.ofNat 64 (entryAddr s.cfg s.ipc.toNat))) := by
  obtain ⟨hacc, -⟩ | ⟨-, hw⟩ := initStep_cases hi hc
  · exact absurd hp hacc
  · exact hw

/-- A write before the last one advances ipc (R145). -/
theorem entryWritten_of_not_last {s : State} (h : s.ipc.toNat + 1 ≠ totalEntries) :
    s.entryWritten = { s with walkerSync := false, ipc := s.ipc + 1 } := if_neg h

/-- The last write ends the BUILD (R145, R146). -/
theorem entryWritten_of_last {s : State} (h : s.ipc.toNat + 1 = totalEntries) :
    s.entryWritten =
      { s with walkerSync := false, ipc := s.ipc + 1, busy := false, mode := .none, built := true } := if_pos h

@[simp] theorem entryWritten_ipc (s : State) : s.entryWritten.ipc = s.ipc + 1 := by
  unfold State.entryWritten
  split <;> rfl

/-- A write of entry n where the entries before it stand leaves the first n + 1 in place, since no two entries share a
byte (R143, R149). -/
theorem entriesHeld_succ {s t : State} {n : Nat} (h : EntriesHeld s n) (hf : t.cfg = s.cfg)
    (hm : t.mem = memWriteBytes s.mem (entryAddr s.cfg n) (bytesOfWord (entry s.cfg n))) : EntriesHeld t (n + 1) := by
  intro i hi
  rw [hf, State.readWord, hm]
  obtain hlt | rfl := Nat.lt_or_eq_of_le (Nat.le_of_lt_succ hi)
  · rw [memReadWord_memWriteBytes_other _ _ (by simp only [entryAddr]; omega)]
    exact h i hlt
  · exact memReadWord_memWriteBytes_same _ _ _

/-! ### Every step keeps the entries written -/

theorem dataWrites_mem {s t : State} (h : DataWrites s t) : t.mem = s.mem := by
  induction h with
  | none => rfl
  | x _ n v ih | sysReg _ n v ih => simpa using ih
  | tmp _ v ih | ps _ v ih | encOut _ v ih => exact ih
  | dsb _ d ih => simpa using ih
  | isb _ ih => simpa using ih

/-- A step that leaves memory alone, and neither starts or advances a BUILD nor sets built, keeps TableInv. -/
theorem tableInv_of_mem {s t : State} (h : TableInv s) (hm : t.mem = s.mem) (hf : t.cfg = s.cfg)
    (hb : t.mode = .build → s.mode = .build ∧ t.ipc = s.ipc) (hu : t.built = true → s.built = true) : TableInv t := by
  have hw : ∀ n, EntriesHeld s n → EntriesHeld t n := fun _ =>
    entriesHeld_congr hf fun _ _ => by simp only [State.readWord, hm]
  refine ⟨hm ▸ h.memWf, fun ht => ?_, fun ht => hw _ (h.built (hu ht))⟩
  obtain ⟨hs, hp⟩ := hb ht
  exact hp ▸ hw _ (h.building hs)

theorem tableInv_dataWrites {s t : State} (h : TableInv s) (hd : DataWrites s t) : TableInv t := by
  obtain ⟨-, hm, hu, -, -, -, -, hp, -, hf⟩ := dataWrites_sameControl hd
  exact tableInv_congr (dataWrites_mem hd) hm hu hp hf h

/-- An error entry stops a BUILD and leaves what it has written (R147). -/
theorem tableInv_raise {s : State} (h : TableInv s) (c : ErrCode) (w : Word64) : TableInv (s.raise c w) := by
  refine tableInv_of_mem h (raise_mem s c w) (raise_cfg s c w) (fun hm => ⟨?_, raise_ipc s c w⟩)
    (fun hb => raise_built s c w ▸ hb)
  cases he : s.err with
  | true => rwa [raise_of_err he] at hm
  | false => rw [raise_of_no_err he] at hm; exact Mode.noConfusion hm

theorem tableInv_uopDone {s : State} (h : TableInv s) (hm : s.mode = .enable) : TableInv s.uopDone := by
  refine tableInv_of_mem h (uopDone_mem s) (uopDone_cfg s) (fun ht => ?_) (fun hb => uopDone_built s ▸ hb)
  by_cases h9 : s.upc = 9
  · rw [uopDone_of_last h9] at ht
    exact Mode.noConfusion ht
  · rw [uopDone_of_ne_last h9] at ht
    exact Mode.noConfusion (hm.symm.trans ht)

/-- A BUILD starts with no entry written (R140). -/
theorem tableInv_startBuild {s : State} (h : TableInv s) : TableInv (startBuild s) where
  memWf := h.memWf
  building := fun _ i hi => absurd hi (Nat.not_lt_zero i)
  built := fun hb => Bool.noConfusion hb

theorem tableInv_blockReset {s : State} (h : TableInv s) : TableInv s.blockReset where
  memWf := h.memWf
  building := fun hm => Mode.noConfusion hm
  built := fun hb => Bool.noConfusion hb

theorem tableInv_acceptBadWord {s : State} (h : TableInv s) (w : Word32) : TableInv (acceptBadWord w s) := by
  unfold acceptBadWord
  split_ifs
  · exact h
  · exact tableInv_raise h _ _
  · exact tableInv_raise h _ _

theorem tableInv_exec {i : Instr} {s t : State} (h : TableInv s) (hx : exec i s = .next t) : TableInv t := by
  obtain hd | ⟨u, hu, c, w, -, rfl⟩ | ⟨-, -, -, rfl⟩ | ⟨-, -, -, rfl⟩ | ⟨hm, u, hu, rfl⟩ := exec_cases hx
  · exact tableInv_dataWrites h hd
  · exact tableInv_raise (tableInv_dataWrites h hu) c w
  · exact tableInv_startBuild h
  · exact tableInv_of_mem h rfl rfl (fun hm => Mode.noConfusion hm) id
  · obtain ⟨-, hum, -⟩ := dataWrites_sameControl hu
    exact tableInv_uopDone (tableInv_dataWrites h hu) (hum.trans hm)

/-- An accepted write of a running BUILD: the entries before ipc stand, and entry ipc joins them (R145). -/
theorem tableInv_entryWritten {s : State} (hc : ControlInv s) (h : TableInv s) (hm : s.mode = .build) :
    TableInv (putEntry s).entryWritten := by
  obtain ⟨hb, -, hi, hcfg⟩ := hc.building hm
  have hheld : EntriesHeld (putEntry s).entryWritten (s.ipc.toNat + 1) :=
    entriesHeld_succ (h.building hm) (entryWritten_cfg _) (entryWritten_mem _)
  refine ⟨?_, fun _ => ?_, fun ht => ?_⟩
  · obtain ⟨-, hbase⟩ := tableBase_of_legal hcfg
    rw [entryWritten_mem]
    refine memWf_memWriteBytes _ h.memWf ?_
    simp only [length_bytesOfWord, entryAddr, totalEntries] at hi ⊢
    omega
  · rw [entryWritten_ipc]
    exact (ipc_succ_toNat hi).symm ▸ hheld
  · by_cases hl : (putEntry s).ipc.toNat + 1 = totalEntries
    · exact hl ▸ hheld
    · rw [entryWritten_of_not_last hl] at ht
      exact Bool.noConfusion (hb.symm.trans ht)

theorem tableInv_initStep {s t : State} (hc : ControlInv s) (h : TableInv s) (hm : s.mode = .build)
    (hx : initStep s = .next t) : TableInv t := by
  obtain ⟨-, -, hi, hcfg⟩ := hc.building hm
  by_cases hp : s.memPort.head? = some .reject
  · cases (initStep_of_reject hi hcfg hp).symm.trans hx
    have htaken : TableInv { s with memPort := s.memPort.tail } := tableInv_congr (s := s) rfl rfl rfl rfl rfl h
    exact tableInv_raise htaken _ _
  · cases (initStep_of_accept hi hcfg hp).symm.trans hx
    exact tableInv_entryWritten hc h hm

theorem tableInv_taken {s s0 : State} (h : TableInv s) (ht : Taken s s0) : TableInv s0 := by
  cases ht with
  | own => exact h
  | action a rest => exact tableInv_congr (s := s) rfl rfl rfl rfl rfl h

/-- Settles O53: only an accepted INIT write changes memory, and it adds the entry that ipc then counts. -/
theorem stepKeepsTables : Obligations.StepKeepsTables := by
  intro s t hc h hs
  obtain ⟨s0, hs0, hcase⟩ := step_cases hs
  have hc0 := controlInv_taken hc hs0
  have h0 := tableInv_taken h hs0
  cases hcase with
  | nothing ht => exact ht ▸ h0
  | reset hi ht => exact ht ▸ tableInv_blockReset h0
  | badWord w ht => exact ht ▸ tableInv_acceptBadWord h0 w
  | command w i hd hx => exact tableInv_exec h0 hx
  | cpu w i hi hd hx => exact tableInv_exec h0 hx
  | build hb hm hx => exact tableInv_initStep hc0 h0 hm hx
  | uop i hr hx => exact tableInv_exec h0 hx

/-! ### The step of INIT -/

/-- The address INIT reports in ERRINFO, as a sum of 64-bit words (R143, R145). -/
theorem ofNat_entryAddr (s : State) :
    BitVec.ofNat 64 (entryAddr s.cfg s.ipc.toNat) = s.cfg.tableBase + 8 * s.ipc.setWidth 64 := by
  apply BitVec.eq_of_toNat_eq
  simp [entryAddr]

/-- Settles O25: the accepted write before the last and the last one, and the rejected one. -/
theorem initStepWritesOneEntry : Obligations.InitStepWritesOneEntry := by
  intro s hin hb hm he hi hc
  have hs : step s = initStep s := (step_of_no_input hin).trans (blockStep_build hb hm)
  refine ⟨fun hp => ⟨_, hs.trans (initStep_of_accept hi hc hp), ?_, fun a ha => ?_, ?_, fun hl => ?_, fun hl => ?_⟩,
    fun hp => ?_⟩
  · rw [State.readWord, entryWritten_mem]
    exact memReadWord_memWriteBytes_same _ _ _
  · rw [State.readByte, entryWritten_mem]
    exact memRead_memWriteBytes_outside _ _ ha
  · rw [entryWritten_ipc]
    exact ipc_succ_toNat hi
  · rw [entryWritten_of_not_last (s := putEntry s) hl]
    rfl
  · rw [entryWritten_of_last (s := putEntry s) hl]
    rfl
  · rw [hs, initStep_of_reject hi hc hp, ofNat_entryAddr]
    exact congrArg _ (raise_of_no_err (s := { s with memPort := s.memPort.tail }) he .mem _)

/-! ### A whole BUILD -/

/-- A BUILD that R202 accepts (R140, R141). -/
theorem exec_build_of_accepted {s : State} (hi : Idle s) (hn : s.enabled = false) (hc : ConfigLegal s.cfg) :
    exec .build s = .next (startBuild s) := by
  obtain ⟨he, hb⟩ := hi
  have ha : acceptError (encode .build) { oneShot := true, needsBuilt := false, page := none } s = none :=
    (acceptError_none_iff _ _ s).2 ⟨hb, fun _ => hn, Bool.noConfusion, hc, fun _ h => nomatch h⟩
  exact congrArg _ (accept_of_no_error he ha startBuild)

/-- Settles O14: no check of R202 applies. -/
theorem buildIsAccepted : Obligations.BuildIsAccepted :=
  fun _ hi hn hc => exec_build_of_accepted hi hn hc

/-- A memory after the first n writes of a BUILD (R142 to R145). Irreducible, so that no definitional check unfolds 81920
writes. -/
@[irreducible] def writeEntries (c : Config) (m : List Host.Cell) (n : Nat) : List Host.Cell :=
  (List.range n).foldl (fun m' i => memWriteBytes m' (entryAddr c i) (bytesOfWord (entry c i))) m

theorem writeEntries_zero (c : Config) (m : List Host.Cell) : writeEntries c m 0 = m := by
  unfold writeEntries
  rfl

theorem writeEntries_succ (c : Config) (m : List Host.Cell) (n : Nat) :
    writeEntries c m (n + 1) = memWriteBytes (writeEntries c m n) (entryAddr c n) (bytesOfWord (entry c n)) := by
  unfold writeEntries
  rw [List.range_succ, List.foldl_concat]

/-- The first n writes of a BUILD reach n doublewords from TABLE_BASE on (R149). -/
theorem memRead_writeEntries_outside (c : Config) (m : List Host.Cell) {n a : Nat}
    (h : a < c.tableBase.toNat ∨ c.tableBase.toNat + 8 * n ≤ a) : memRead (writeEntries c m n) a = memRead m a := by
  induction n with
  | zero => rw [writeEntries_zero]
  | succ n ih =>
    rw [writeEntries_succ, memRead_memWriteBytes_outside _ _ (by simp only [length_bytesOfWord, entryAddr]; omega)]
    exact ih (by omega)

/-- The states of a BUILD whose writes are accepted, from the state s that BUILD meets, by the number of writes made: the
last write completes it (R140, R145). -/
def afterWrites (s : State) (n : Nat) : State :=
  { s with
    inputs := [], mem := writeEntries s.cfg s.mem n, memPort := s.memPort.drop n,
    walkerSync := decide (n = 0) && s.walkerSync, ipc := BitVec.ofNat 17 n, built := decide (n = totalEntries),
    busy := decide (n ≠ totalEntries), mode := if n = totalEntries then .none else .build }

/-- The acceptance of the BUILD leaves no write made (R140). -/
theorem startBuild_eq_afterWrites (s : State) : startBuild { s with inputs := [] } = afterWrites s 0 := by
  simp [startBuild, afterWrites, writeEntries_zero]

theorem afterWrites_ipc {s : State} {n : Nat} (hn : n < totalEntries) : (afterWrites s n).ipc.toNat = n := by
  simp only [afterWrites, totalEntries, BitVec.toNat_ofNat] at hn ⊢
  omega

/-- Entry n is the next one to be written (R143). -/
theorem putEntry_afterWrites {s : State} {n : Nat} (hn : n < totalEntries) :
    putEntry (afterWrites s n) =
      { afterWrites s n with mem := writeEntries s.cfg s.mem (n + 1), memPort := s.memPort.drop (n + 1) } := by
  rw [putEntry, afterWrites_ipc hn]
  simp [afterWrites, writeEntries_succ]

/-- The registers after a write of a BUILD whose writes are accepted (R145). -/
theorem entryWritten_afterWrites {s : State} {n : Nat} (hn : n < totalEntries) :
    (putEntry (afterWrites s n)).entryWritten = afterWrites s (n + 1) := by
  have hne : n ≠ totalEntries := Nat.ne_of_lt hn
  have hipc := afterWrites_ipc (s := s) hn
  rw [putEntry_afterWrites hn]
  by_cases hl : n + 1 = totalEntries
  · rw [entryWritten_of_last (by rwa [hipc])]
    simp [afterWrites, ← hl, BitVec.ofNat_add]
  · rw [entryWritten_of_not_last (by rwa [hipc])]
    simp [afterWrites, hl, hne, BitVec.ofNat_add]

/-- An INIT step of a BUILD whose writes are accepted (R145). -/
theorem step_afterWrites {s : State} (hc : ConfigLegal s.cfg) (hp : ∀ a ∈ s.memPort, a = .accept) {n : Nat}
    (hn : n < totalEntries) : step (afterWrites s n) = .next (afterWrites s (n + 1)) := by
  have hne : n ≠ totalEntries := Nat.ne_of_lt hn
  have hport : (afterWrites s n).memPort.head? ≠ some .reject := fun h =>
    PortAnswer.noConfusion (hp _ (List.mem_of_mem_drop (List.mem_of_head? h)))
  rw [step_of_no_input rfl, blockStep_build (decide_eq_true hne) (if_neg hne),
    initStep_of_accept (s := afterWrites s n) (by rwa [afterWrites_ipc hn]) hc hport, entryWritten_afterWrites hn]

/-- The acceptance of a BUILD and its first n writes, when the port accepts them (R140, R145; 70_reset_and_hazards.md
R245). -/
theorem run_build {s : State} (hi : Idle s) (hn : s.enabled = false) (hc : ConfigLegal s.cfg)
    (hin : OneCommand s 0x10000000) (hp : ∀ a ∈ s.memPort, a = .accept) {n : Nat} (hle : n ≤ totalEntries) :
    core.run (1 + n) s = .next (afterWrites s n) := by
  have hs : step s = .next (startBuild { s with inputs := [] }) :=
    (step_of_command hin (by decide)).trans (exec_build_of_accepted hi hn hc)
  rw [startBuild_eq_afterWrites] at hs
  rw [Nat.add_comm, run_succ_next n hs]
  exact run_of_steps n fun k hk => step_afterWrites hc hp (hk.trans_le hle)

/-- The entries written so far stand (R142, R143). -/
theorem entriesHeld_afterWrites (s : State) (n : Nat) : EntriesHeld (afterWrites s n) n := by
  induction n with
  | zero => exact fun i hi => absurd hi (Nat.not_lt_zero i)
  | succ n ih => exact entriesHeld_succ ih rfl (writeEntries_succ s.cfg s.mem n)

/-- Settles O27: the acceptance step, then one accepted write for each entry. -/
theorem buildCompletesWithTheTables : Obligations.BuildCompletesWithTheTables := by
  intro s hi hn hc hin hp
  refine ⟨afterWrites s totalEntries, run_build hi hn hc hin hp (Nat.le_refl _), ?_, fun a ha => ?_, rfl⟩
  · exact tablesHeld_of_entries (entriesHeld_afterWrites s totalEntries)
  · exact memRead_writeEntries_outside s.cfg s.mem (n := totalEntries) ha

/-! ### The tables as bytes -/

theorem memRead_of_memReadBytes {m : List Host.Cell} {a n : Nat} {bs : List Byte} (h : memReadBytes m a n = some bs) :
    bs.length = n ∧ ∀ k (hk : k < bs.length), memRead m (a + k) = some bs[k] := by
  induction n generalizing a bs with
  | zero => cases h; simp
  | succ n ih =>
    simp only [memReadBytes] at h
    split at h
    next b bs' hb hbs =>
      cases h
      obtain ⟨hlen, hread⟩ := ih hbs
      refine ⟨by simp [hlen], fun k hk => ?_⟩
      cases k with
      | zero => simpa using hb
      | succ k =>
        rw [show a + (k + 1) = a + 1 + k by omega]
        simpa using hread k (by simpa using hk)
    next => cases h

/-- Byte k of the number that bytes spell (20_memory.md R60). -/
theorem numberOfBytes_div_mod (bs : List Byte) {k : Nat} (hk : k < bs.length) :
    numberOfBytes bs / 256 ^ k % 256 = bs[k].toNat := by
  induction bs generalizing k with
  | nil => simp at hk
  | cons b bs ih =>
    have hb := b.isLt
    cases k with
    | zero =>
      simp only [numberOfBytes, List.getElem_cons_zero]
      omega
    | succ k =>
      have hd : (b.toNat + 256 * numberOfBytes bs) / 256 = numberOfBytes bs := by omega
      rw [numberOfBytes, Nat.pow_succ', ← Nat.div_div_eq_div_mul, hd]
      exact ih (by simpa using hk)

/-- A doubleword that is in memory fixes its eight bytes (R60). -/
theorem memRead_of_memReadWord {m : List Host.Cell} {a : Nat} {v : Word64} (h : memReadWord m a = some v) {k : Nat}
    (hk : k < 8) : memRead m (a + k) = some (byteOf v k) := by
  obtain ⟨bs, hbs, rfl⟩ := Option.map_eq_some_iff.1 h
  obtain ⟨hlen, hread⟩ := memRead_of_memReadBytes hbs
  have hb := numberOfBytes_div_mod bs (hlen ▸ hk)
  rw [hread k (hlen ▸ hk)]
  refine congrArg some (BitVec.eq_of_toNat_eq ?_)
  rw [← hb, byteOf, BitVec.extractLsb'_toNat, BitVec.toNat_ofNat, Nat.shiftRight_eq_div_pow]
  interval_cases k <;> omega

/-- Every byte of the region belongs to one entry (R149). -/
theorem exists_entry_of_region {c : Config} {a : Nat} (h1 : c.tableBase.toNat ≤ a)
    (h2 : a < c.tableBase.toNat + 0xA0000) : ∃ i k, i < totalEntries ∧ k < 8 ∧ a = entryAddr c i + k := by
  refine ⟨(a - c.tableBase.toNat) / 8, (a - c.tableBase.toNat) % 8, ?_, Nat.mod_lt _ (by decide), ?_⟩
  · simp only [totalEntries]
    omega
  · simp only [entryAddr]
    omega

/-- Each byte of a held entry. -/
theorem readByte_of_entriesHeld {s : State} {n i k : Nat} (h : EntriesHeld s n) (hi : i < n) (hk : k < 8) :
    s.readByte (entryAddr s.cfg i + k) = some (byteOf (entry s.cfg i) k) :=
  memRead_of_memReadWord (h i hi) hk

/-- Settles O28: a byte of the region is one of an entry, and both states hold the entries of one configuration. -/
theorem tablesAreAFunctionOfTheConfiguration : Obligations.TablesAreAFunctionOfTheConfiguration := by
  intro s t _ hs hsb _ ht htb hf
  have hS := hs.built hsb
  have hT := ht.built htb
  refine ⟨tablesHeld_of_entries hS, tablesHeld_of_entries hT, fun a h1 h2 => ?_⟩
  obtain ⟨i, k, hi, hk, rfl⟩ := exists_entry_of_region h1 h2
  have hbyte := readByte_of_entriesHeld hT hi hk
  rw [hf] at hbyte
  rw [hbyte, readByte_of_entriesHeld hS hi hk]
  exact ⟨rfl, rfl⟩

end Sys2Proof

/-! ## What SEQ has programmed: its µops on the registers they write -/

namespace Sys2Proof

open Machine Claims

/-! ### What µop n leaves in each register -/

/-- A µop writes no system register but the four of its level (42_sequencer.md R175). -/
theorem uopEffect_sysReg_other {e : El} {r : SysReg} (h : ¬IsTarget e r) (n : Nat) (s : State) :
    (uopEffect e n s).sysReg r = s.sysReg r := by
  simp only [IsTarget, not_or] at h
  obtain ⟨h1, h2, h3, h4⟩ := h
  unfold uopEffect
  split <;> simp [setSysReg_sysReg_other, h1, h2, h3, h4]

/-- MAIR is written by u0 (R163). -/
theorem uopEffect_mair (e : El) (n : Nat) (s : State) :
    (uopEffect e n s).sysReg (.mair e) = if n = 0 then mairVal else s.sysReg (.mair e) := by
  match n with
  | 0 | 1 | 2 | 3 | 4 | 5 | 6 | 7 | 8 | k + 9 => simp [uopEffect, setSysReg_sysReg_other]

/-- TCR is written by u2 (R165). -/
theorem uopEffect_tcr (e : El) (n : Nat) (s : State) :
    (uopEffect e n s).sysReg (.tcr e) = if n = 2 then tcrVal s.ps else s.sysReg (.tcr e) := by
  match n with
  | 0 | 1 | 2 | 3 | 4 | 5 | 6 | 7 | 8 | k + 9 => simp [uopEffect, setSysReg_sysReg_other]

/-- TTBR0 is written by u3 (R166). -/
theorem uopEffect_ttbr0 (e : El) (n : Nat) (s : State) :
    (uopEffect e n s).sysReg (.ttbr0 e) = if n = 3 then ttbrVal s.cfg.tableBase else s.sysReg (.ttbr0 e) := by
  match n with
  | 0 | 1 | 2 | 3 | 4 | 5 | 6 | 7 | 8 | k + 9 => simp [uopEffect, setSysReg_sysReg_other]

/-- SCTLR is written by u7 (R170). -/
theorem uopEffect_sctlr (e : El) (n : Nat) (s : State) :
    (uopEffect e n s).sysReg (.sctlr e) = if n = 7 then sctlrVal s.tmp else s.sysReg (.sctlr e) := by
  match n with
  | 0 | 1 | 2 | 3 | 4 | 5 | 6 | 7 | 8 | k + 9 => simp [uopEffect, setSysReg_sysReg_other]

/-- ps is loaded by u1 (R164). -/
theorem uopEffect_ps (e : El) (n : Nat) (s : State) :
    (uopEffect e n s).ps = if n = 1 then s.idAa64mmfr0El1.extractLsb' 0 3 else s.ps := by
  match n with
  | 0 | 1 | 2 | 3 | 4 | 5 | 6 | 7 | 8 | k + 9 => simp [uopEffect]

/-- tmp is loaded by u1 and u6 (R164, R169). -/
theorem uopEffect_tmp (e : El) (n : Nat) (s : State) :
    (uopEffect e n s).tmp =
      if n = 1 then s.idAa64mmfr0El1 else if n = 6 then s.sysReg (.sctlr e) else s.tmp := by
  match n with
  | 0 | 1 | 2 | 3 | 4 | 5 | 6 | 7 | 8 | k + 9 => simp [uopEffect]

/-- walker_sync is set by u4 and u8 (R167, R171). -/
theorem uopEffect_walkerSync (e : El) (n : Nat) (s : State) :
    (uopEffect e n s).walkerSync = if n = 4 ∨ n = 8 then true else s.walkerSync := by
  match n with
  | 0 | 1 | 2 | 3 | 4 | 5 | 6 | 7 | 8 | k + 9 => simp [uopEffect, loadTmp]

/-- The context is copied by u5 and u9 (R168, R172). -/
theorem uopEffect_ctx {e : El} {s : State} (he : elOf s.cfg.variant.el = some e) (n : Nat) :
    (uopEffect e n s).ctx = if n = 5 ∨ 9 ≤ n then s.ctxOf e else s.ctx := by
  match n with
  | 0 | 1 | 2 | 3 | 4 | 5 | 6 | 7 | 8 | k + 9 => simp [uopEffect, loadTmp, isb_ctx he]

/-! ### A µop that meets no error -/

/-- SeqDone does not read the control registers that R162 advances. -/
theorem seqDone_uopDone {s : State} {e : El} {n : Nat} (h : SeqDone s e n) : SeqDone s.uopDone e n :=
  seqDone_congr (fun r _ => uopDone_sysReg s r) (uopDone_idAa64mmfr0El1 s) (uopDone_ps s) (uopDone_walkerSync s)
    (uopDone_ctx s) (uopDone_tmp s) (uopDone_cfg s) h

/-- Each µop adds what it is there for to what the µops before it have done (R163 to R172): no µop
writes what an earlier one has programmed, and u7 has read tmp before SCTLR differs from it. -/
theorem seqDone_uopEffect {s : State} {e : El} {n : Nat} (he : elOf s.cfg.variant.el = some e)
    (hp : n = 1 → paRange s.idAa64mmfr0El1 ≤ paRangeMax) (h : SeqDone s e n) : SeqDone (uopEffect e n s) e (n + 1) := by
  obtain ⟨-, -, hid, -, -, -, hcfg, -⟩ := sameOutside_dataWrites (uopEffect_dataWrites e n s)
  have hps : 2 ≤ n → (uopEffect e n s).ps = s.ps := fun hn => by rw [uopEffect_ps, if_neg (by omega)]
  constructor
  case mair =>
    intro _
    rw [uopEffect_mair]
    split_ifs with h0
    · rfl
    · exact h.mair (by omega)
  case paRange =>
    intro hn
    rw [hid, uopEffect_ps]
    split_ifs with h1
    · exact ⟨hp h1, rfl⟩
    · exact h.paRange (by omega)
  case tcr =>
    intro hn
    rw [uopEffect_tcr, hps (by omega)]
    split_ifs with h2
    · rfl
    · exact h.tcr (by omega)
  case ttbr0 =>
    intro hn
    rw [uopEffect_ttbr0, hcfg]
    split_ifs with h3
    · rfl
    · exact h.ttbr0 (by omega)
  case synced =>
    intro hn
    rw [uopEffect_walkerSync]
    split_ifs with h4
    · rfl
    · exact h.synced (by omega)
  case ctxRegs =>
    intro hn
    rw [uopEffect_ctx he, hps (by omega), hcfg]
    split_ifs with h5
    · exact ⟨h.mair (by omega), h.tcr (by omega), h.ttbr0 (by omega)⟩
    · exact h.ctxRegs (by omega)
  case tmpRead =>
    intro hn
    obtain rfl : n = 6 := by omega
    rw [uopEffect_tmp, uopEffect_sctlr]
    rfl
  case sctlr =>
    intro hn
    rw [uopEffect_sctlr, uopEffect_tmp, if_neg (show n ≠ 1 by omega), if_neg (show n ≠ 6 by omega)]
    split_ifs with h7
    · rfl
    · exact h.sctlr (by omega)
  case mmuOn =>
    intro hn
    rw [uopEffect_ctx he, if_pos (by omega), ctxOf_mmuOn, h.sctlr (by omega), sctlrVal_on]
  case ctxAll =>
    intro hn
    rw [uopEffect_ctx he, if_pos (by omega)]
    refine (ctxOf_congr ?_ ?_ ?_ ?_).symm
    · rw [uopEffect_mair, if_neg (by omega)]
    · rw [uopEffect_tcr, if_neg (by omega)]
    · rw [uopEffect_ttbr0, if_neg (by omega)]
    · rw [uopEffect_sctlr, if_neg (by omega)]

/-- An error entry after writes none of which is to a system register (60_exceptions.md R205). -/
def StopsWithError (s t : State) : Prop :=
  ∃ u c w, DataWrites s u ∧ (∀ r, u.sysReg r = s.sysReg r) ∧ t = u.raise c w

theorem stopsWithError_of_raise {s t : State} {c : ErrCode} {w : Word64} (h : t = s.raise c w) : StopsWithError s t :=
  ⟨s, c, w, .none, fun _ => rfl, h⟩

/-- A register-writing µop writes its register and advances, or raises SYSREG (R163, R165, R166, R170). -/
theorem seqWrite_done_or_stops (u : Nat) (r : SysReg) (v : Word64) (s : State) :
    seqWrite u r v s = ((s.writeX 0 v).setSysReg r v).uopDone ∨ StopsWithError s (seqWrite u r v s) := by
  obtain ⟨-, h⟩ | ⟨-, h⟩ := seqWrite_cases u r v s
  · exact .inl h
  · exact .inr (stopsWithError_of_raise h)

/-- Everything µop n can do: its writes and the advance of R162, or an error entry. -/
theorem seqUop_cases (e : El) (n : Nat) (s : State) :
    (seqUop e n s = (uopEffect e n s).uopDone ∧ (n = 1 → paRange s.idAa64mmfr0El1 ≤ paRangeMax)) ∨
    StopsWithError s (seqUop e n s) := by
  match n with
  | 0 => exact (seqWrite_done_or_stops 0 (.mair e) mairVal s).imp_left fun h => ⟨h, nofun⟩
  | 1 =>
    obtain ⟨-, h⟩ | ⟨-, -, h⟩ | ⟨-, hp, h⟩ := seqReadMmfr0_cases s
    · exact .inr (stopsWithError_of_raise h)
    · exact .inr ⟨_, _, _, .tmp (.x .none 0 _) _, loadTmp_sysReg s.idAa64mmfr0El1 s.ps s, h⟩
    · exact .inl ⟨h, fun _ => hp⟩
  | 2 => exact (seqWrite_done_or_stops 2 (.tcr e) (tcrVal s.ps) s).imp_left fun h => ⟨h, nofun⟩
  | 3 => exact (seqWrite_done_or_stops 3 (.ttbr0 e) (ttbrVal s.cfg.tableBase) s).imp_left fun h => ⟨h, nofun⟩
  | 6 =>
    obtain ⟨-, h⟩ | ⟨-, h⟩ := seqReadSctlr_cases (.sctlr e) s
    · exact .inr (stopsWithError_of_raise h)
    · exact .inl ⟨h, nofun⟩
  | 7 => exact (seqWrite_done_or_stops 7 (.sctlr e) (sctlrVal s.tmp) s).imp_left fun h => ⟨h, nofun⟩
  | 4 | 5 | 8 => exact .inl ⟨rfl, nofun⟩
  | k + 9 => exact .inl ⟨rfl, fun h => by omega⟩

/-- SEQ's µop, whatever agent runs its word: the µop of VARIANT.EL's register set at upc (R178). -/
theorem eq_seqUop_of_seqRuns {s t : State} {i : Instr} (hr : s.seqRuns i = true) (hx : exec i s = .next t) :
    ∃ e, elOf s.cfg.variant.el = some e ∧ s.upc.toNat < 10 ∧ t = seqUop e s.upc.toNat s := by
  obtain ⟨-, -, hu⟩ := (seqRuns_iff s i).1 hr
  obtain ⟨e, he, hi⟩ := elOf_of_uopInstr hu
  have hn : s.upc.toNat < 10 := by
    obtain ⟨hl, -⟩ := List.getElem?_eq_some_iff.1 hi
    rwa [uopTable_length] at hl
  rw [exec_eq_seqUop hn hi hr] at hx
  exact ⟨e, he, hn, (Host.Outcome.next.inj hx).symm⟩

/-! ### Every step keeps what SEQ has programmed -/

/-- A stopped block that is not enabled has nothing programmed to keep. -/
theorem seqInv_of_stopped {s : State} (hm : s.mode ≠ .enable) (he : s.enabled = false) : SeqInv s where
  running := fun h => absurd h hm
  enabled := fun h => Bool.noConfusion (he.symm.trans h)

/-- A step that neither advances nor starts an ENABLE keeps SeqInv where it keeps what the µops have done. -/
theorem seqInv_of_seqDone {s t : State} (hm : t.mode = s.mode) (hu : t.upc = s.upc) (hen : t.enabled = s.enabled)
    (hf : t.cfg = s.cfg) (hd : ∀ e n, elOf s.cfg.variant.el = some e → SeqDone s e n → SeqDone t e n) (h : SeqInv s) :
    SeqInv t where
  running ht e he := by
    rw [hf] at he
    exact hu ▸ hd e _ he (h.running (hm ▸ ht) e he)
  enabled ht e he := by
    rw [hf] at he
    exact hd e 10 he (h.enabled (hen ▸ ht) e he)

theorem seqInv_taken {s s0 : State} (h : SeqInv s) (ht : Taken s s0) : SeqInv s0 := by
  cases ht with
  | own => exact h
  | action a rest => exact seqInv_inputs h rest

/-- An error entry stops an ENABLE, and leaves what a completed one has programmed (60_exceptions.md R205). -/
theorem seqInv_raise {s : State} (h : SeqInv s) (c : ErrCode) (w : Word64) : SeqInv (s.raise c w) := by
  cases hr : s.err with
  | true => rwa [raise_of_err hr]
  | false =>
    refine ⟨fun hm => ?_, fun hen e he => ?_⟩
    · rw [raise_of_no_err hr] at hm
      exact Mode.noConfusion hm
    · rw [raise_enabled] at hen
      rw [raise_cfg] at he
      exact seqDone_congr (fun r _ => raise_sysReg s c w r) (raise_idAa64mmfr0El1 s c w) (raise_ps s c w)
        (raise_walkerSync s c w) (raise_ctx s c w) (raise_tmp s c w) (raise_cfg s c w) (h.enabled hen e he)

theorem seqInv_acceptBadWord {s : State} (h : SeqInv s) (w : Word32) : SeqInv (acceptBadWord w s) := by
  unfold acceptBadWord
  split_ifs
  · exact h
  · exact seqInv_raise h _ _
  · exact seqInv_raise h _ _

/-- Before u0 nothing is programmed. -/
theorem seqDone_zero (s : State) (e : El) : SeqDone s e 0 :=
  ⟨nofun, nofun, nofun, nofun, nofun, nofun, nofun, nofun, nofun, nofun⟩

/-- A word that decodes at CMD is one of the four commands (30_encoding.md R92). -/
theorem command_of_decodeCommand {w : Word32} {i : Instr} (h : decodeCommand w = .ok i) :
    ∃ n, i = .build ∨ i = .enable ∨ i = .encTable n ∨ i = .encPage n := by
  obtain ⟨-, -, hi⟩ | ⟨-, -, hi⟩ | ⟨-, -, hi⟩ | ⟨-, -, hi⟩ := decodeCommand_cases h
  · exact ⟨0, .inl hi⟩
  · exact ⟨0, .inr (.inl hi)⟩
  · exact ⟨_, .inr (.inr (.inl hi))⟩
  · exact ⟨_, .inr (.inr (.inr hi))⟩

/-- A command writes none of the registers SEQ programs; an accepted ENABLE stands before u0 (R160). -/
theorem seqInv_command {i : Instr} {s t : State} {n : Nat}
    (hi : i = .build ∨ i = .enable ∨ i = .encTable n ∨ i = .encPage n) (h : SeqInv s) (hx : exec i s = .next t) :
    SeqInv t := by
  obtain ⟨⟨-, -, hid, -, -, -, hf, -⟩, hr, -, hctx, hsync, htmp, hps, hen, -⟩ := commandFrame i s t n hi hx
  have hkeep : ∀ e k, SeqDone s e k → SeqDone t e k := fun _ _ =>
    seqDone_congr (fun r _ => hr r) hid hps hsync hctx htmp hf
  refine ⟨fun hm e he => ?_, fun ht e he => hkeep e 10 (h.enabled (hen ▸ ht) e (hf ▸ he))⟩
  obtain rfl | ⟨c, w, rfl⟩ | ⟨-, rfl⟩ | ⟨-, rfl⟩ | ⟨-, v, rfl⟩ := exec_command_cases hi hx
  · exact h.running hm e he
  · exact (seqInv_raise h c w).running hm e he
  · exact Mode.noConfusion hm
  · exact seqDone_zero _ e
  · exact hkeep e _ (h.running hm e he)

/-- A DSB only sets walker_sync (20_memory.md R71). -/
theorem seqDone_dsb {s : State} {e : El} {n : Nat} (d : DsbScope) (h : SeqDone s e n) : SeqDone (s.dsb d) e n := by
  cases e <;> exact { h with synced := fun _ => rfl }

/-- An ISB between the µops copies registers that the µops before it have written (R72). -/
theorem seqDone_isb {s : State} {e : El} {n : Nat} (he : elOf s.cfg.variant.el = some e) (h : SeqDone s e n) :
    SeqDone s.isb e n := by
  rw [isb_eq he]
  cases e <;> exact { h with
    ctxRegs := fun hn => ⟨h.mair (by omega), h.tcr (by omega), h.ttbr0 (by omega)⟩
    mmuOn := fun hn => by rw [ctxOf_mmuOn, h.sctlr (by omega), sctlrVal_on]
    ctxAll := fun _ => rfl }

/-- A write of another register than the level's four (R175). -/
theorem seqDone_setSysReg {s : State} {e : El} {n : Nat} {r : SysReg} (hr : ¬IsTarget e r) (v : Word64)
    (h : SeqDone s e n) : SeqDone (s.setSysReg r v) e n :=
  seqDone_congr (fun _ hr' => setSysReg_sysReg_other s v fun heq => hr (heq ▸ hr')) (setSysReg_idAa64mmfr0El1 s r v)
    (by simp) (by simp) (by simp) (by simp) (by simp) h

theorem seqDone_writeX {s : State} {e : El} {n : Nat} (k : Nat) (v : Word64) (h : SeqDone s e n) :
    SeqDone (s.writeX k v) e n :=
  seqDone_congr (fun _ _ => writeX_sysReg s k v _) (by simp) (by simp) (by simp) (by simp) (by simp) (by simp) h

/-- The MSR row of a register: SEQ's µop, or the move of Xt to the register (30_encoding.md R96). -/
theorem exec_of_msrOf {r : SysReg} {rt : Nat} {i : Instr} (h : msrOf r rt = some i) (s : State) :
    msrTarget i = some r ∧ ∃ u v, exec i s = if s.seqRuns i then .next (seqWrite u r v s) else cpuMsr r rt s := by
  rcases r with (_ | _) | (_ | _) | (_ | _) | (_ | _) | _ <;> cases h <;> exact ⟨rfl, _, _, rfl⟩

/-- The MRS row of a register: SEQ's µop, or the move of the register to Xt (R96). -/
theorem exec_of_mrsOf {r : SysReg} {rt : Nat} {i : Instr} (h : mrsOf r rt = some i) (s : State) :
    ∃ f : State → State, exec i s = if s.seqRuns i then .next (f s) else cpuMrs r rt s := by
  rcases r with _ | _ | _ | (_ | _) | _ <;> cases h <;> exact ⟨_, rfl⟩

/-- Everything an A64-SYS word can do that is not SEQ's µop (R95 to R97): a write of its own register, a write of an X
register, or a barrier. -/
theorem exec_outside_cases {w : Word32} {i : Instr} {s t : State} (hd : decodeA64 w = .ok i) (hs : s.seqRuns i = false)
    (hx : exec i s = .next t) :
    (∃ r v, msrTarget i = some r ∧ t = s.setSysReg r v) ∨ (∃ n v, t = s.writeX n v) ∨ (∃ d, t = s.dsb d) ∨
    t = s.isb := by
  have hs' : ¬s.seqRuns i = true := Bool.eq_false_iff.1 hs
  have hbar : (i = .dsbSy ∨ i = .dsbIsh ∨ i = .isb) → (∃ d, t = s.dsb d) ∨ t = s.isb := fun hi => by
    obtain ⟨u, hu, ⟨hr, -⟩ | ⟨-, rfl⟩⟩ := exec_barrier_cases hi hx
    · exact absurd hr hs'
    · exact hu.imp (·.2) (·.2)
  obtain ⟨-, hi⟩ | ⟨-, hi⟩ | ⟨-, hi⟩ | ⟨-, -, hm⟩ := decodeA64_cases hd
  · exact .inr (.inr (hbar (.inl hi)))
  · exact .inr (.inr (hbar (.inr (.inl hi))))
  · exact .inr (.inr (hbar (.inr (.inr hi))))
  · obtain ⟨r, -, ⟨-, hi⟩ | ⟨-, hi⟩⟩ := decodeMove_cases hm
    · obtain ⟨ht, u, v, he⟩ := exec_of_msrOf hi s
      obtain ⟨hr, -⟩ | ⟨-, hw⟩ := exec_msr_cases he hx
      · exact absurd hr hs'
      · exact .inl ⟨r, _, ht, hw⟩
    · obtain ⟨f, he⟩ := exec_of_mrsOf hi s
      obtain ⟨hr, -⟩ | ⟨-, hw⟩ := exec_mrs_cases he hx
      · exact absurd hr hs'
      · exact .inr (.inl ⟨_, _, hw⟩)

/-- A CPU's own word keeps SeqInv: while there is something programmed, it writes no target register (P_SOLE). -/
theorem seqInv_outside {w : Word32} {i : Instr} {s t : State} (h : SeqInv s) (hd : decodeA64 w = .ok i)
    (hs : s.seqRuns i = false) (hx : exec i s = .next t)
    (hsole : s.mode = .enable ∨ s.enabled = true → ∀ e r, elOf s.cfg.variant.el = some e → msrTarget i = some r →
      ¬IsTarget e r) : SeqInv t := by
  obtain ⟨r, v, hm, rfl⟩ | ⟨n, v, rfl⟩ | ⟨d, rfl⟩ | rfl := exec_outside_cases hd hs hx
  · by_cases hp : s.mode = .enable ∨ s.enabled = true
    · exact seqInv_of_seqDone (by simp) (by simp) (by simp) (by simp)
        (fun e _ he => seqDone_setSysReg (hsole hp e r he hm) v) h
    · obtain ⟨hmode, hen⟩ := not_or.1 hp
      exact seqInv_of_stopped (by simpa using hmode) (by simpa using hen)
  · exact seqInv_of_seqDone (by simp) (by simp) (by simp) (by simp) (fun _ _ _ => seqDone_writeX n v) h
  · exact seqInv_of_seqDone (s := s) rfl rfl rfl rfl (fun _ _ _ => seqDone_dsb d) h
  · exact seqInv_of_seqDone (by simp) (by simp) (by simp) (by simp) (fun _ _ he => seqDone_isb he) h

/-- The advance of R162: before u9 upc counts the µop just done, and u9 leaves the ENABLE complete. -/
theorem seqInv_uopDone {s : State} {e : El} (he : elOf s.cfg.variant.el = some e) (hen : s.enabled = false)
    (hn : s.upc.toNat < 10) (hd : SeqDone s e (s.upc.toNat + 1)) : SeqInv s.uopDone := by
  have hdone : ∀ e', elOf s.uopDone.cfg.variant.el = some e' → SeqDone s.uopDone e' (s.upc.toNat + 1) := by
    intro e' he'
    rw [uopDone_cfg, he] at he'
    exact Option.some.inj he' ▸ seqDone_uopDone hd
  by_cases h9 : s.upc = 9
  · have hlast : s.upc.toNat + 1 = 10 := by rw [h9]; rfl
    refine ⟨fun hm => ?_, fun _ => hlast ▸ hdone⟩
    rw [uopDone_of_last h9] at hm
    exact Mode.noConfusion hm
  · have hnext : s.uopDone.upc.toNat = s.upc.toNat + 1 := by
      rw [uopDone_of_ne_last h9]
      bv_omega
    refine ⟨fun _ => hnext ▸ hdone, fun ht => ?_⟩
    rw [uopDone_enabled_of_ne_last h9, hen] at ht
    exact Bool.noConfusion ht

/-- A µop that raises an error ends the ENABLE before it is complete (R205). -/
theorem seqInv_stopsWithError {s t : State} (hr : s.err = false) (hen : s.enabled = false) (h : StopsWithError s t) :
    SeqInv t := by
  obtain ⟨u, c, w, hu, -, rfl⟩ := h
  obtain ⟨-, -, -, hen', hr', -⟩ := dataWrites_sameControl hu
  refine seqInv_of_stopped ?_ ?_
  · rw [raise_of_no_err (hr'.trans hr)]
    exact Mode.noConfusion
  · rw [raise_enabled, hen', hen]

/-- A µop of a running ENABLE, with or without an error (R162, R205). -/
theorem seqInv_uop {i : Instr} {s t : State} (hc : ControlInv s) (h : SeqInv s) (hr : s.seqRuns i = true)
    (hx : exec i s = .next t) : SeqInv t := by
  obtain ⟨e, he, hn, rfl⟩ := eq_seqUop_of_seqRuns hr hx
  obtain ⟨hb, hm, -⟩ := (seqRuns_iff s i).1 hr
  obtain ⟨-, hen, -⟩ := hc.enabling hm
  obtain ⟨hdone, hp⟩ | hstop := seqUop_cases e s.upc.toNat s
  · obtain ⟨-, -, -, hen', -, -, -, -, hu', hf'⟩ := dataWrites_sameControl (uopEffect_dataWrites e s.upc.toNat s)
    rw [hdone]
    refine seqInv_uopDone (by rwa [hf']) (hen'.trans hen) (by rwa [hu']) ?_
    rw [hu']
    exact seqDone_uopEffect he hp (h.running hm e he)
  · have herr : s.err = false :=
      Bool.eq_false_iff.2 fun herr => Bool.noConfusion ((hc.err_stops herr).symm.trans hb)
    exact seqInv_stopsWithError herr hen hstop

/-- An INIT step does not enable, and it starts no command (41_initializer.md R145). -/
theorem initStep_frame {s t : State} (h : initStep s = .next t) :
    t.enabled = s.enabled ∧ (t.mode = s.mode ∨ t.mode = .none) := by
  simp only [initStep] at h
  split_ifs at h
  by_cases hp : s.memPort.head? = some .reject
  · rw [memWrite64_reject hp] at h
    cases h
    unfold State.raise
    split <;> simp
  · rw [memWrite64_ok hp] at h
    cases h
    unfold State.entryWritten
    split <;> simp

/-- A running BUILD has nothing programmed, before and after its step (R145). -/
theorem seqInv_initStep {s t : State} (hc : ControlInv s) (hm : s.mode = .build) (hx : initStep s = .next t) :
    SeqInv t := by
  obtain ⟨-, hen, -⟩ := hc.building hm
  obtain ⟨he, ht⟩ := initStep_frame hx
  exact seqInv_of_stopped (by rcases ht with ht | ht <;> simp [ht, hm]) (he.trans hen)

/-- P_SOLE covers an ENABLE while it runs and after it (70_reset_and_hazards.md R236). -/
theorem targetUntouched_of_sole {s : State} (hc : ControlInv s) (hsole : PSole s)
    (hkept : s.enabled = true → TargetUntouched s) (h : s.mode = .enable ∨ s.enabled = true) : TargetUntouched s := by
  rcases h with hm | hen
  · obtain ⟨hb, hn, -⟩ := hc.enabling hm
    exact hsole (.inr hb) hn
  · exact hkept hen

/-- Settles O54: SEQ's µops add to what is programmed in their order, and no other case of a step takes from it.
That ctx holds SCTLR's other bits too is log entry 24's reading. -/
theorem stepKeepsSequence : Obligations.StepKeepsSequence := by
  intro s t hc h hsole hkept hs
  obtain ⟨s0, hs0, hcase⟩ := step_cases hs
  have hc0 := controlInv_taken hc hs0
  have h0 := seqInv_taken h hs0
  cases hcase with
  | nothing ht => exact ht ▸ h0
  | reset hi ht => exact ht ▸ seqInv_of_stopped Mode.noConfusion rfl
  | badWord w ht => exact ht ▸ seqInv_acceptBadWord h0 w
  | command w i hd hx =>
    obtain ⟨n, hi⟩ := command_of_decodeCommand hd
    exact seqInv_command hi h0 hx
  | cpu w i hi hd hx =>
    cases hr : s0.seqRuns i with
    | true => exact seqInv_uop hc0 h0 hr hx
    | false =>
      refine seqInv_outside h0 hd hr hx fun hp e r he hm htgt => ?_
      have hruns : s0.seqRuns i = true := by
        cases hs0 <;> exact targetUntouched_of_sole hc hsole hkept hp w i e r hi hd he hm htgt
      exact Bool.noConfusion (hr.symm.trans hruns)
  | build hb hm hx => exact seqInv_initStep hc0 hm hx
  | uop i hr hx => exact seqInv_uop hc0 h0 hr hx

/-- Settles O41: a µop writes its level's registers only, and an error entry none. -/
theorem seqLeavesTheOtherLevelAlone : Obligations.SeqLeavesTheOtherLevelAlone := by
  intro s t e e' hin hb hm he hne hs
  rw [step_of_no_input hin] at hs
  obtain ⟨i, hr, hx⟩ : ∃ i, s.seqRuns i = true ∧ exec i s = .next t := by
    rw [blockStep_enable hb hm, seqStep] at hs
    split at hs
    next i hi => exact ⟨i, (seqRuns_iff s i).2 ⟨hb, hm, hi⟩, hs⟩
    next => cases hs
  obtain ⟨e1, he1, -, rfl⟩ := eq_seqUop_of_seqRuns hr hx
  cases he.symm.trans he1
  have hkeep : ∀ r, ¬IsTarget e r → (seqUop e s.upc.toNat s).sysReg r = s.sysReg r := fun r hr => by
    obtain ⟨hdone, -⟩ | ⟨u, c, w, -, hu, hstop⟩ := seqUop_cases e s.upc.toNat s
    · rw [hdone, uopDone_sysReg, uopEffect_sysReg_other hr]
    · rw [hstop, raise_sysReg, hu]
  refine ⟨hkeep _ ?_, hkeep _ ?_, hkeep _ ?_, hkeep _ ?_⟩ <;> simp [IsTarget, hne]

end Sys2Proof

/-! ## The µops one by one, and ENABLE at the command port -/

namespace Sys2Proof

open Machine Claims

/-! ### µops that move a register through X0 -/

/-- An answer whose X registers are those of a write of X0. -/
theorem answersUpToX_of_writeX {i : Instr} {s u : State} {v : Word64}
    (h : exec i s = .next { u with x := (s.writeX 0 v).x }) : AnswersUpToX i s u :=
  ⟨_, h, rfl, fun k hk => (readX_congr (s := s.writeX 0 v) rfl k).trans (readX_writeX_other s v hk)⟩

/-- An error entry moves no X register (60_exceptions.md R205). -/
theorem answersUpToX_of_failed {i : Instr} {s : State} {c : ErrCode} {w : Word64}
    (h : exec i s = .next (failed s c w)) : AnswersUpToX i s (failed s c w) :=
  ⟨_, h, rfl, fun _ _ => rfl⟩

/-- µop n is done: upc points at the next one (42_sequencer.md R162). -/
theorem uopDone_at {s : State} {n : Nat} (hu : s.upc = BitVec.ofNat 4 n) (hn : n < 9) :
    s.uopDone = { s with upc := BitVec.ofNat 4 (n + 1) } := by
  rw [uopDone_of_ne_last (by rw [hu]; bv_omega), hu, BitVec.ofNat_add]
  rfl

/-- A system register is given its value whatever X0 holds. -/
theorem setSysReg_with_x (s : State) (x : Vector Word64 31) (r : SysReg) (v : Word64) :
    State.setSysReg { s with x := x } r v = { s.setSysReg r v with x := x } := by
  rcases r with (_ | _) | (_ | _) | (_ | _) | (_ | _) | _ <;> rfl

/-- A register-writing µop at a sufficient level and below it (R163, R165, R166, R170). -/
theorem answersUpToX_seqWrite {s : State} {e : El} {n : Nat} {i : Instr} {r : SysReg} {v : Word64} {rt : Nat}
    (h : AtMicroOp s e n) (hn : n < 9) (hi : (uopTable s.cfg.dsb1Scope e)[n]? = some i)
    (hx : exec i s = if s.seqRuns i then .next (seqWrite n r v s) else cpuMsr r rt s) :
    (minEl r ≤ s.curEl.val → AnswersUpToX i s { s.setSysReg r v with upc := BitVec.ofNat 4 (n + 1) }) ∧
    (s.curEl.val < minEl r → AnswersUpToX i s (failed s .sysreg (BitVec.ofNat 64 n))) := by
  rw [if_pos (seqRuns_of_atMicroOp h hi)] at hx
  have hu := upc_of_atMicroOp h
  obtain ⟨-, -, herr, -, -⟩ := h
  obtain ⟨hl, hw⟩ | ⟨hl, hw⟩ := seqWrite_cases n r v s <;> rw [hw] at hx
  · refine ⟨fun _ => answersUpToX_of_writeX (v := v) ?_, fun hlt => by omega⟩
    rw [hx, uopDone_at (n := n) (by simpa using hu) hn, writeX_eq s 0 v, setSysReg_with_x]
  · rw [raise_of_no_err herr] at hx
    exact ⟨fun hge => by omega, fun _ => answersUpToX_of_failed hx⟩

/-- Settles O29: u0 of both register sets. -/
theorem microOpWriteMair : Obligations.MicroOpWriteMair := fun _ =>
  ⟨fun h => answersUpToX_seqWrite (r := .mair .el3) h (by decide) rfl rfl,
    fun h => answersUpToX_seqWrite (r := .mair .el2) h (by decide) rfl rfl⟩

/-- Settles O31: u2 of both register sets, whose value is TCR_VAL. -/
theorem microOpWriteTcr : Obligations.MicroOpWriteTcr := by
  rintro s _ rfl
  exact ⟨fun h => answersUpToX_seqWrite (r := .tcr .el3) h (by decide) rfl rfl,
    fun h => answersUpToX_seqWrite (r := .tcr .el2) h (by decide) rfl rfl⟩

/-- TTBR_VAL of a 64 KiB aligned base (10_state.md R46). -/
theorem ttbrVal_eq_add_one {b : Word64} (h : bits b 15 0 = 0) : ttbrVal b = b + 1 := by
  have hb : b &&& 1 = 0 := by
    apply BitVec.eq_of_toNat_eq
    have hn : b.toNat &&& 1 = 0 := by
      rw [Nat.and_one_is_mod]
      simp only [bits] at h
      omega
    exact hn
  exact (BitVec.add_eq_or_of_and_eq_zero b 1 hb).symm

/-- Settles O33: u3 of both register sets, whose value is TTBR_VAL. -/
theorem microOpWriteTtbr : Obligations.MicroOpWriteTtbr := by
  rintro s _ rfl
  exact ⟨ttbrVal_eq_add_one, fun h => answersUpToX_seqWrite (r := .ttbr0 .el3) h (by decide) rfl rfl,
    fun h => answersUpToX_seqWrite (r := .ttbr0 .el2) h (by decide) rfl rfl⟩

/-- Settles O37: u7 of both register sets, whose value is SCTLR_VAL of tmp. -/
theorem microOpWriteSctlr : Obligations.MicroOpWriteSctlr := by
  rintro s _ rfl
  exact ⟨fun h => answersUpToX_seqWrite (r := .sctlr .el3) h (by decide) rfl rfl,
    fun h => answersUpToX_seqWrite (r := .sctlr .el2) h (by decide) rfl rfl⟩

/-- u6 of the register set of level e (R169). -/
theorem answersUpToX_seqReadSctlr {s : State} {e : El} {i : Instr} (h : AtMicroOp s e 6)
    (hi : (uopTable s.cfg.dsb1Scope e)[6]? = some i) :
    (levelOf e ≤ s.curEl.val → AnswersUpToX i s { s with tmp := s.sysReg (.sctlr e), upc := 7 }) ∧
    (s.curEl.val < levelOf e → AnswersUpToX i s (failed s .sysreg 6)) := by
  have hx : exec i s = .next (seqReadSctlr (.sctlr e) s) := exec_eq_seqUop (by decide) hi (seqRuns_of_atMicroOp h hi)
  have hu := upc_of_atMicroOp h
  have hm : minEl (.sctlr e) = levelOf e := minEl_of_isTarget (.inr (.inr (.inr rfl)))
  obtain ⟨-, -, herr, -, -⟩ := h
  obtain ⟨hl, hw⟩ | ⟨hl, hw⟩ := seqReadSctlr_cases (.sctlr e) s <;> rw [hm] at hl <;> rw [hw] at hx
  · rw [raise_of_no_err herr] at hx
    exact ⟨fun hge => by omega, fun _ => answersUpToX_of_failed hx⟩
  · refine ⟨fun _ => answersUpToX_of_writeX (v := s.sysReg (.sctlr e)) ?_, fun hlt => by omega⟩
    rw [hx, uopDone_at (n := 6) (by simpa using hu) (by decide), writeX_eq]
    rfl

/-- Settles O36: u6 of both register sets. -/
theorem microOpReadSctlr : Obligations.MicroOpReadSctlr := fun _ =>
  ⟨fun h => answersUpToX_seqReadSctlr h rfl, fun h => answersUpToX_seqReadSctlr h rfl⟩

/-- Settles O30: the three outcomes of u1. -/
theorem microOpReadFeatureRegister : Obligations.MicroOpReadFeatureRegister := by
  intro s e h
  have hi : (uopTable s.cfg.dsb1Scope e)[1]? = some (.mrsIdAa64mmfr0El1 0) := by cases e <;> rfl
  have hx : exec (.mrsIdAa64mmfr0El1 0) s = .next (seqReadMmfr0 s) := if_pos (seqRuns_of_atMicroOp h hi)
  have hu := upc_of_atMicroOp h
  obtain ⟨-, -, herr, -, -⟩ := h
  have hps : s.idAa64mmfr0El1.extractLsb' 0 3 = BitVec.ofNat 3 (bits s.idAa64mmfr0El1 2 0) := by
    apply BitVec.eq_of_toNat_eq
    simp [bits]
  have hpa : paRange s.idAa64mmfr0El1 = bits s.idAa64mmfr0El1 3 0 := rfl
  have hmax : paRangeMax = 6 := rfl
  rw [hx]
  obtain ⟨hl, hw⟩ | ⟨hl, hp, hw⟩ | ⟨hl, hp, hw⟩ := seqReadMmfr0_cases s <;> rw [hw]
  · exact ⟨fun _ => congrArg _ (raise_of_no_err herr _ _), fun hge => by omega, fun hge => by omega⟩
  · refine ⟨fun hlt => by omega, fun _ _ => congrArg _ (raise_of_no_err ?_ _ _), fun _ hle => by omega⟩
    simpa using herr
  · refine ⟨fun hlt => by omega, fun _ hgt => by omega, fun _ _ => congrArg _ ?_⟩
    rw [uopDone_at (n := 1) (by simpa using hu) (by decide), hps]
    rfl

/-- u4 and u8: a DSB that is SEQ's µop n sets walker_sync and advances upc (R167, R171). -/
theorem exec_dsb_of_atMicroOp {s : State} {e : El} {n : Nat} {d : DsbScope} (h : AtMicroOp s e n) (hn : n < 9)
    (hi : (uopTable s.cfg.dsb1Scope e)[n]? = some (dsbInstr d)) :
    exec (dsbInstr d) s = .next { s with walkerSync := true, upc := BitVec.ofNat 4 (n + 1) } := by
  rw [exec_dsbInstr_of_seqRuns (seqRuns_of_atMicroOp h hi), uopDone_at (s := s.dsb d) (upc_of_atMicroOp h) hn]
  rfl

/-- Settles O34: u4 in its two scopes, and u8. -/
theorem microOpDataBarriers : Obligations.MicroOpDataBarriers := by
  refine fun s e => ⟨fun h hd => ?_, fun h hd => ?_, fun h => ?_⟩
  · exact exec_dsb_of_atMicroOp (d := .sy) h (by decide) (by rw [hd]; cases e <;> rfl)
  · exact exec_dsb_of_atMicroOp (d := .ish) h (by decide) (by rw [hd]; cases e <;> rfl)
  · exact exec_dsb_of_atMicroOp (d := .sy) h (by decide) (by cases e <;> rfl)

/-! ### ENABLE at the command port -/

/-- Settles O15: no check of R202 applies to a built block, and ORDER is the first that applies without a BUILD. -/
theorem enableIsAcceptedOnceBuilt : Obligations.EnableIsAcceptedOnceBuilt := by
  refine fun s hi hn => ⟨fun hb hc => exec_enable_of_accepted hi hb hn hc, fun hb => ?_⟩
  obtain ⟨he, hbusy⟩ := hi
  refine congrArg _ (accept_of_error (e := { code := .order, info := errWord (encode .enable) }) he ?_ _)
  simp [acceptError, hbusy, hn, hb]

/-- A one-shot command once enabled = 1 (42_sequencer.md R177; 60_exceptions.md R202). -/
theorem accept_reentry {s : State} (hi : Idle s) (hen : s.enabled = true) (w : Word32) {k : CommandChecks}
    (hk : k.oneShot = true) (f : State → State) : accept w k f s = failed s .reentry (errWord w) := by
  obtain ⟨he, hbusy⟩ := hi
  refine accept_of_error (e := { code := .reentry, info := errWord w }) he ?_ f
  simp [acceptError, hbusy, hen, hk]

/-- No instruction clears enabled. -/
theorem enabled_exec {i : Instr} {s t : State} (hen : s.enabled = true) (hx : exec i s = .next t) :
    t.enabled = true := by
  have hdata : ∀ {u}, DataWrites s u → u.enabled = true := fun hu => by
    obtain ⟨-, -, -, he, -⟩ := dataWrites_sameControl hu
    exact he.trans hen
  obtain hd | ⟨u, hu, c, w, -, rfl⟩ | ⟨-, -, -, rfl⟩ | ⟨-, -, -, rfl⟩ | ⟨-, u, hu, rfl⟩ := exec_cases hx
  · exact hdata hd
  · rw [raise_enabled, hdata hu]
  · exact hen
  · exact hen
  · unfold State.uopDone
    split_ifs
    · rfl
    · exact hdata (u := u) hu

/-- Settles O18: REENTRY precedes the other checks, and of a step's cases only the reset clears enabled. -/
theorem enableIsOneShot : Obligations.EnableIsOneShot := by
  refine ⟨fun s hi hen => ⟨congrArg _ (accept_reentry hi hen _ rfl _), congrArg _ (accept_reentry hi hen _ rfl _)⟩,
    fun s t hen hnr hs => ?_⟩
  obtain ⟨s0, hs0, hcase⟩ := step_cases hs
  have h0 : s0.enabled = true := by cases hs0 <;> exact hen
  cases hcase with
  | nothing ht => exact ht ▸ h0
  | reset hi ht => exact absurd hi hnr
  | badWord w ht =>
    rw [ht, acceptBadWord]
    split_ifs <;> simp [h0]
  | command w i hd hx => exact enabled_exec h0 hx
  | cpu w i hi hd hx => exact enabled_exec h0 hx
  | build hb hm hx =>
    obtain ⟨he, -⟩ := initStep_frame hx
    exact he.trans h0
  | uop i hr hx => exact enabled_exec h0 hx

end Sys2Proof

/-! ## Command acceptance check by check, and the error that stays -/

/-! ### The acceptance step is R202's pseudocode -/

namespace Sys2Proof

open Machine Claims

/-- A check that applies decides the answer, and one that does not leaves it to the checks after it. -/
theorem elim_check {α : Type} (p : Prop) [Decidable p] (e : Err) (o : Option Err) (x : α) (g : Err → α) :
    (if p then some e else o).elim x g = if p then g e else o.elim x g := by
  split_ifs <;> rfl

/-- A group of checks none of which applies leaves the answer to the group after it. -/
theorem elim_or {α : Type} (o p : Option Err) (x : α) (g : Err → α) :
    (o.or p).elim x g = o.elim (p.elim x g) g := by
  cases o <;> rfl

/-- RANGE, the check of ENC.PAGE's index (60_exceptions.md R202). -/
def rangeError (k : CommandChecks) : Option Err :=
  k.page.bind fun g => if mappedPages ≤ g then some { code := .range, info := BitVec.ofNat 64 g } else none

/-- The block's own registers are checked first, then the configuration, then the page index. -/
theorem acceptError_eq_or (w : Word32) (k : CommandChecks) (s : State) :
    acceptError w k s =
      if s.busy then some { code := .busy, info := errWord w }
      else if k.oneShot ∧ s.enabled then some { code := .reentry, info := errWord w }
      else if k.needsBuilt ∧ ¬s.built then some { code := .order, info := errWord w }
      else (configError s.cfg).or (rangeError k) := by
  unfold acceptError rangeError
  cases configError s.cfg <;> cases k.page <;> rfl

/-- Acceptance is the error entry of the first error, and the effect where there is none. -/
theorem accept_eq_elim (w : Word32) (k : CommandChecks) (f : State → State) (s : State) :
    accept w k f s = if s.err = true then s
      else (acceptError w k s).elim (f s) fun e => failed s e.code e.info := by
  cases he : s.err with
  | true => exact if_pos he
  | false =>
    rw [if_neg Bool.false_ne_true]
    cases ha : acceptError w k s with
    | none => exact accept_of_no_error he ha f
    | some e => exact accept_of_error he ha f

/-- The acceptance of a command that decodes as one chain of checks, in R202's order. -/
theorem accept_eq_checks (w : Word32) (k : CommandChecks) (f : State → State) (s : State) :
    accept w k f s =
      if s.err = true then s
      else if s.busy = true then failed s .busy (errWord w)
      else if k.oneShot = true ∧ s.enabled = true then failed s .reentry (errWord w)
      else if k.needsBuilt = true ∧ ¬s.built = true then failed s .order (errWord w)
      else if bits s.cfg.tableBase 15 0 ≠ 0 then failed s .align s.cfg.tableBase
      else if s.cfg.tableBase.toNat + regionBytes > 2 ^ 48 then failed s .config 1
      else if ¬(s.cfg.variant.devLo ≤ s.cfg.variant.devHi ∧ s.cfg.variant.devHi ≤ mappedPages) then failed s .config 2
      else if ¬(s.cfg.variant.el = 2 ∨ s.cfg.variant.el = 3) then failed s .config 3
      else (rangeError k).elim (f s) fun e => failed s e.code e.info := by
  rw [accept_eq_elim, acceptError_eq_or]
  simp only [configError, elim_check, elim_or, Option.elim_none]

/-- Each of the four commands meets the checks that R202 makes for its OP. -/
theorem exec_of_decodeCommand {w : Word32} {i : Instr} (h : decodeCommand w = .ok i) (s : State) :
    exec i s = .next (acceptance w s) := by
  have hw := encode_of_decodeCommand h
  obtain ⟨ho, hz, rfl⟩ | ⟨ho, hz, rfl⟩ | ⟨ho, hz, rfl⟩ | ⟨ho, hz, rfl⟩ := decodeCommand_cases h <;>
    refine congrArg _ ((accept_eq_checks _ _ _ s).trans ?_)
  · simp [acceptance, reservedBitsOf, errWord, rangeError, hw, ho, hz, startBuild]
  · simp [acceptance, reservedBitsOf, errWord, rangeError, hw, ho, hz, startEnable]
  · simp [acceptance, reservedBitsOf, errWord, rangeError, hw, ho, hz]
  · simp [acceptance, reservedBitsOf, errWord, rangeError, hw, ho, hz, elim_check]

/-- A word that does not decode has a reserved OP or a reserved bit set (30_encoding.md R94). -/
theorem reserved_of_decodeCommand_error {w : Word32} {r : DecodeError} (h : decodeCommand w = .error r) :
    ¬(bits w 31 28 = 1 ∨ bits w 31 28 = 2 ∨ bits w 31 28 = 3 ∨ bits w 31 28 = 4) ∨
      reservedBitsOf (bits w 31 28) w ≠ 0 := by
  by_contra! ⟨ho, hz⟩
  rcases ho with ho | ho | ho | ho <;> simp_all [reservedBitsOf, decodeCommand]

/-- A word that does not decode gets no further than BADCMD in R202. -/
theorem acceptBadWord_eq_acceptance {w : Word32} {r : DecodeError} (h : decodeCommand w = .error r) (s : State) :
    acceptBadWord w s = acceptance w s := by
  have hbad := reserved_of_decodeCommand_error h
  cases he : s.err with
  | true => exact (if_pos he).trans (if_pos he).symm
  | false =>
    simp only [acceptBadWord, acceptance, he, hbad, raise_of_no_err he, Bool.false_eq_true, if_false, if_true]
    rfl

/-- Settles O12: a word that decodes meets its command's checks, any other word BADCMD at the latest. -/
theorem hostWriteRunsTheAcceptanceStep : Obligations.HostWriteRunsTheAcceptanceStep := by
  intro s w rest h
  cases hd : decodeCommand w with
  | ok i => rw [step_of_command h hd, exec_of_decodeCommand hd]
  | error r => rw [step_of_badWord h hd, acceptBadWord_eq_acceptance hd]

/-! ### After an error -/

/-- The error registers still hold the error recorded in s (60_exceptions.md R206). -/
def KeepsError (s t : State) : Prop := t.err = true ∧ t.errcode = s.errcode ∧ t.errinfo = s.errinfo

theorem keepsError_refl {s : State} (he : s.err = true) : KeepsError s s := ⟨he, rfl, rfl⟩

theorem keepsError_dataWrites {s t : State} (he : s.err = true) (h : DataWrites s t) : KeepsError s t := by
  obtain ⟨-, -, -, -, hr, hc, hi, -⟩ := dataWrites_sameControl h
  exact ⟨hr.trans he, hc, hi⟩

/-- No error is raised after the first one (R206). -/
theorem keepsError_raise {s t : State} (h : KeepsError s t) (c : ErrCode) (w : Word64) : KeepsError s (t.raise c w) := by
  have ⟨he, _⟩ := h
  rwa [raise_of_err he]

/-- A word that is no command is ignored after an error (R202). -/
theorem acceptBadWord_of_err {s : State} (he : s.err = true) (w : Word32) : acceptBadWord w s = s := if_pos he

/-- No instruction touches a recorded error. -/
theorem keepsError_exec {i : Instr} {s t : State} (he : s.err = true) (hx : exec i s = .next t) : KeepsError s t := by
  obtain hd | ⟨u, hu, c, w, -, rfl⟩ | ⟨hn, -, -, -⟩ | ⟨hn, -, -, -⟩ | ⟨-, u, hu, rfl⟩ := exec_cases hx
  · exact keepsError_dataWrites he hd
  · exact keepsError_raise (keepsError_dataWrites he hu) c w
  · exact Bool.noConfusion (he.symm.trans hn)
  · exact Bool.noConfusion (he.symm.trans hn)
  · simpa [KeepsError] using keepsError_dataWrites he hu

/-- No INIT step touches a recorded error. -/
theorem keepsError_initStep {s t : State} (he : s.err = true) (hx : initStep s = .next t) : KeepsError s t := by
  simp only [initStep] at hx
  split_ifs at hx
  by_cases hp : s.memPort.head? = some .reject
  · rw [memWrite64_reject hp] at hx
    cases hx
    exact keepsError_raise (t := { s with memPort := s.memPort.tail }) (keepsError_refl he) _ _
  · rw [memWrite64_ok hp] at hx
    cases hx
    simp [KeepsError, he]

/-- Of a step's cases only the block reset clears an error. -/
theorem keepsError_step {s t : State} (he : s.err = true) (hnr : s.inputs.head? ≠ some .reset)
    (hs : step s = .next t) : KeepsError s t := by
  obtain ⟨s0, hs0, hcase⟩ := step_cases hs
  obtain ⟨h0, hc, hi⟩ : KeepsError s s0 := by cases hs0 <;> exact ⟨he, rfl, rfl⟩
  suffices KeepsError s0 t by rwa [KeepsError, hc, hi] at this
  cases hcase with
  | nothing ht => rw [ht]; exact keepsError_refl h0
  | reset hr ht => exact absurd hr hnr
  | badWord w ht => rw [ht, acceptBadWord_of_err h0]; exact keepsError_refl h0
  | command w i hd hx => exact keepsError_exec h0 hx
  | cpu w i hi hd hx => exact keepsError_exec h0 hx
  | build hb hm hx => exact keepsError_initStep h0 hx
  | uop i hr hx => exact keepsError_exec h0 hx

/-- Settles O13: R202 ignores a word after an error, an error has stopped the block, and only a reset clears it. -/
theorem errorsAreStickyAndStopTheBlock : Obligations.ErrorsAreStickyAndStopTheBlock := by
  refine ⟨fun s w rest he h => ?_, fun s hc he h => ?_, fun s t he hnr hs => keepsError_step he hnr hs⟩
  · exact (hostWriteRunsTheAcceptanceStep s w rest h).trans (congrArg _ (if_pos he))
  · rw [step_of_no_input h, blockStep_idle (hc.err_stops he)]

end Sys2Proof

/-! ## The block reset, and memory once the tables are built -/

namespace Sys2Proof

open Machine Claims

/-- STATUS after a block reset: every register it shows is 0 (10_state.md R32, R52). -/
@[simp] theorem blockReset_status (s : State) : s.blockReset.status = 0 := by
  apply BitVec.eq_of_toNat_eq
  simp [status_toNat, State.blockReset, modeBits, errBits]

/-- Settles O10: the step is the block reset, which writes the registers of R22 alone. -/
theorem blockResetClearsTheBlockAndNothingElse : Obligations.BlockResetClearsTheBlockAndNothingElse :=
  fun _ _ h => ⟨_, step_of_input h, blockReset_status _, rfl⟩

/-- Taking an action from the schedule touches neither memory nor mode. -/
theorem taken_mem_mode {s s0 : State} (h : Taken s s0) : s0.mem = s.mem ∧ s0.mode = s.mode := by
  cases h <;> exact ⟨rfl, rfl⟩

theorem acceptBadWord_mem (w : Word32) (s : State) : (acceptBadWord w s).mem = s.mem := by
  unfold acceptBadWord
  split_ifs
  · rfl
  · exact raise_mem s _ _
  · exact raise_mem s _ _

/-- An INIT write is the only step that reaches memory (20_memory.md R64, 41_initializer.md R145). -/
theorem readByte_of_step_not_building {s t : State} (hm : s.mode ≠ .build) (hs : step s = .next t) (a : Nat) :
    t.readByte a = s.readByte a := by
  obtain ⟨s0, hs0, hcase⟩ := step_cases hs
  obtain ⟨hmem, hmode⟩ := taken_mem_mode hs0
  have hexec : ∀ i, exec i s0 = .next t → t.readByte a = s0.readByte a := fun i hx =>
    (noInstructionWritesMemory i s0 t hx).1 a
  suffices t.readByte a = s0.readByte a by rwa [State.readByte, State.readByte, hmem] at this
  cases hcase with
  | nothing ht => rw [ht]
  | reset hi ht => rw [ht]; rfl
  | badWord w ht => rw [ht, State.readByte, acceptBadWord_mem]; rfl
  | command w i hd hx => exact hexec i hx
  | cpu w i hi hd hx => exact hexec i hx
  | build hb hb' hx => exact absurd (hmode.symm.trans hb') hm
  | uop i hr hx => exact hexec i hx

/-- Settles O56: while built = 1 no BUILD runs, and no other step writes memory. -/
theorem noWriteAfterBuild : Obligations.NoWriteAfterBuild := by
  intro s t hc hb hs
  refine readByte_of_step_not_building (fun hm => ?_) hs
  obtain ⟨hnb, -⟩ := hc.building hm
  exact Bool.noConfusion (hb.symm.trans hnb)

end Sys2Proof

/-! ## Accesses at or above 4 GiB after an ENABLE -/

namespace Sys2Proof

open Machine Claims

/-- After an ENABLE a piece at or above 4 GiB is out of the range that T0SZ selects (20_memory.md R77). -/
theorem translatePiece_above {s : State} (e : El) (a : Access) {va : Word64} (hva : 2 ^ 32 ≤ va.toNat) :
    translatePiece s (enabledCtx s) e a va = .error (.fault .translationRange) := by
  have hscheme : tcrTg0 (enabledCtx s).tcr = 0b01 ∧ tcrT0sz (enabledCtx s).tcr = 32 := tcrVal_scheme s.ps
  have hrange : bits va 63 32 ≠ 0 := by simp only [bits]; omega
  rw [translatePiece, if_neg (not_not.2 hscheme), if_pos hrange]

/-- The first piece at or above 4 GiB decides an access that no device page below forbids (log entry 25). -/
theorem mmuAccess_of_first_above {s : State} {e : El} {a : Access} (h : EnabledAt s e) {j : Nat} (hj : j < a.pages)
    (hv : 2 ^ 32 ≤ (a.piece j).toNat)
    (hbefore : ∀ i, i < j →
      a.page i < 2 ^ 16 ∧ (classOf s.cfg (a.page i) = .dev → a.kind ≠ .fetch ∧ a.unaligned = false)) :
    mmuAccess s a = .stop (.fault .translationRange) := by
  refine mmuAccess_enabled_error h
    (translatePieces_error (Nat.zero_le j) (by omega) (fun i _ hi => ?_) (translatePiece_above e a hv))
  obtain ⟨hpage, hperm⟩ := hbefore i hi
  obtain ⟨-, hlt, hg⟩ := piece_toNat a hpage
  exact ⟨_, translatePiece_ok h hlt hg hperm⟩

/-- An access that starts at or above 4 GiB faults at its first piece (R242). -/
theorem mmuAccess_of_start_above {s : State} {e : El} {a : Access} (h : EnabledAt s e) (hhi : 2 ^ 32 ≤ a.va.toNat) :
    mmuAccess s a = .stop (.fault .translationRange) :=
  mmuAccess_of_first_above h (Nat.succ_pos _) hhi fun i hi => absurd hi (Nat.not_lt_zero i)

/-- An access that starts below 4 GiB and runs past it has a piece at 4 GiB, and only pages below before it. -/
theorem exists_piece_at_4GiB {a : Access} (hlo : a.va.toNat < 2 ^ 32) (hhi : 2 ^ 32 ≤ a.va.toNat + (a.size - 1)) :
    ∃ j, j < a.pages ∧ (a.piece j).toNat = 2 ^ 32 ∧ ∀ i, i < j → a.page i < 2 ^ 16 := by
  obtain ⟨k, hk⟩ : ∃ k, a.va.toNat / 2 ^ 16 + (k + 1) = 2 ^ 16 := ⟨2 ^ 16 - a.va.toNat / 2 ^ 16 - 1, by omega⟩
  have hpage : a.page (k + 1) = 2 ^ 16 := hk
  refine ⟨k + 1, ?_, ?_, fun i hi => ?_⟩
  · simp only [Access.pages, pageSize]
    omega
  · rw [Access.piece, hpage]
    rfl
  · simp only [Access.page, pageSize]
    omega

/-- A permitted access with a byte at or above 4 GiB: every piece below is translated (R242). -/
theorem mmuAccess_of_permitted_above {s : State} {e : El} {a : Access} (h : EnabledAt s e)
    (ha : 2 ^ 32 ≤ a.va.toNat + (a.size - 1)) (hp : Permitted s.cfg a) :
    mmuAccess s a = .stop (.fault .translationRange) := by
  obtain hlo | hhi := Nat.lt_or_ge a.va.toNat (2 ^ 32)
  · obtain ⟨j, hj, hv, hbefore⟩ := exists_piece_at_4GiB hlo ha
    exact mmuAccess_of_first_above h hj (Nat.le_of_eq hv.symm) fun i hi =>
      ⟨hbefore i hi, fun hd => hp ⟨i, hi.trans hj, hbefore i hi, hd⟩⟩
  · exact mmuAccess_of_start_above h hhi

/-- Settles O58: the first piece at or above 4 GiB decides, unless a device page below it has done so. -/
theorem enabledMmuFaultsFrom4GiB : Obligations.EnabledMmuFaultsFrom4GiB := by
  intro s e a h ha
  have hperm := mmuAccess_of_permitted_above h ha
  refine ⟨mmuAccess_of_start_above h, hperm, ?_⟩
  by_cases hp : Permitted s.cfg a
  · exact ⟨_, hperm hp⟩
  · obtain ⟨ht, hforbidden⟩ := Classical.not_imp.1 hp
    obtain ⟨hfetch, hunaligned⟩ := enabledMmuFaultsOnDevicePages s e a h ht
    by_cases hk : a.kind = .fetch
    · exact ⟨_, hfetch hk⟩
    · exact ⟨_, hunaligned (Bool.of_not_eq_false fun hu => hforbidden ⟨hk, hu⟩)⟩

end Sys2Proof
